-- ==== Sys2Proof/Word.lean ====
section
/-! DEFINITION. The word types of the block (00_scope.md R11, R12): 8-bit data bytes, 7-bit bus addresses, 32-bit
registers and addresses. All values are unsigned. -/

namespace Sys2Proof

/-- A data byte (00_scope.md R11). -/
abbrev Byte := BitVec 8

/-- A register value, or an address of the host's address space (00_scope.md R11). -/
abbrev Word := BitVec 32

/-- A bus address, "a 7-bit unsigned value" (00_scope.md R11). -/
abbrev BusAddr := BitVec 7

end Sys2Proof
end

