-- ==== Sys2Proof/Config.lean ====
section
/-! DEFINITION. What is fixed for a machine (the parameters of 00_scope.md R10; `Layout` and `ResetValues`, which name registers
and fields, stand in Machine/Layout.lean), the names of the agents' moves, and the free values of the spec's `draw`
(00_scope.md R14) and of its open choices. A free value is an `opaque` constant: nothing can evaluate it. -/

namespace Sys2Proof

namespace Config

/-- `NUM_GPIO`, at its default (00_scope.md R10). DESIGN CHOICE (log 3), unsafe. -/
abbrev numGpio : Nat := 30

/-- `FIFO_DEPTH`, at its default (00_scope.md R10). DESIGN CHOICE (log 3), unsafe. -/
abbrev fifoDepth : Nat := 16

/-- The span in which the decoder looks for a window's registers (30_encoding.md R113). -/
def windowSpan : Nat := 0x1000

end Config

/-- One of the two I2C units (00_scope.md R16, *Unit*). -/
abbrev UnitId := Fin 2

/-- A bank-0 GPIO pin that the model admits (00_scope.md R10). -/
abbrev Pin := Fin Config.numGpio

/-- The other unit: `t = 1 - c` (45_i2c_bus_engine.md, notation). -/
def otherUnit (u : UnitId) : UnitId := if u = 0 then 1 else 0

/-- The two signals of a bus (41_pin_configuration.md R171). -/
inductive Signal where
  | sda
  | scl
deriving DecidableEq, Repr, Inhabited

/-- The unit that a pin reaches with FUNCSEL = 3 (41_pin_configuration.md R171). -/
def i2cUnit (n : Nat) : UnitId := if n / 2 % 2 = 0 then 0 else 1

/-- The signal that a pin carries with FUNCSEL = 3 (41_pin_configuration.md R171). -/
def i2cSignal (n : Nat) : Signal := if n % 2 = 0 then .sda else .scl

/-- The OPEN parameters of 00_scope.md R10 and `WIRED`. `TGT_UNIT` is the other unit (log 28). -/
structure Board where
  ctrlUnit : UnitId
  ctrlSda : Pin
  ctrlScl : Pin
  tgtSda : Pin
  tgtScl : Pin
  tgtAddr : BusAddr
  externalPullups : Bool
  wired : Bool
deriving DecidableEq, Repr, Inhabited

/-- `TGT_UNIT`: with two units and `TGT_UNIT != CTRL_UNIT` (00_scope.md R10), the other one. -/
def Board.tgtUnit (b : Board) : UnitId := otherUnit b.ctrlUnit

/-- `SDA_PIN(u)` (40_register_access.md R160). -/
def Board.sdaPin (b : Board) (u : UnitId) : Pin := if u = b.ctrlUnit then b.ctrlSda else b.tgtSda

/-- `SCL_PIN(u)` (40_register_access.md R160). -/
def Board.sclPin (b : Board) (u : UnitId) : Pin := if u = b.ctrlUnit then b.ctrlScl else b.tgtScl

/-- The pin of unit `u` for a signal: `line_PIN(u)` of 45_i2c_bus_engine.md R271. -/
def Board.linePin (b : Board) (sig : Signal) (u : UnitId) : Pin :=
  match sig with
  | .sda => b.sdaPin u
  | .scl => b.sclPin u

/-- The constraint 41_pin_configuration.md R171 puts on the pin parameters. -/
def Board.valid (b : Board) : Bool :=
  [0, 1].all fun u =>
    i2cUnit (b.sdaPin u).val == u && i2cSignal (b.sdaPin u).val == .sda &&
    i2cUnit (b.sclPin u).val == u && i2cSignal (b.sclPin u).val == .scl

/-- A joint step of the bus agent (45_i2c_bus_engine.md R274, R276, R277, R279). -/
inductive BusStep where
  | write (c : UnitId)
  | readAddr (c : UnitId)
  | readData (c : UnitId)
  | lost (c : UnitId)
deriving DecidableEq, Repr, Inhabited

/-- Who acts at a step (20_memory.md R90): the CPU, or the bus agent with one of its joint steps. -/
inductive Turn where
  | cpu
  | bus (b : BusStep)
deriving DecidableEq, Repr, Inhabited

/-- Values of the caller (10_state.md R31): a byte, word, bus address or pin index as an unsigned word, a boolean, an
optional byte (log 14). -/
inductive Machine.Val where
  | word (w : Word)
  | bool (b : Bool)
  | opt (o : Option Word)
deriving DecidableEq, Repr, Inhabited

/-- The operators of 30_encoding.md R141 whose values must be of one kind, as names for what they leave open on others (log 16). -/
inductive Machine.Operator where
  | eq
  | ne
  | not
  | and
  | or
  | addMod256
  | some
  | slice (hi lo : Nat)
  | bitAnd
  | bitOr
deriving DecidableEq, Repr

namespace Config

/-- FREE VALUE: a board, not necessarily valid (log 4). -/
opaque openBoard : Board

/-- The example board of 95_test_vectors.md. -/
def exampleBoard : Board :=
  { ctrlUnit := 0, ctrlSda := 4, ctrlScl := 5, tgtSda := 2, tgtScl := 3, tgtAddr := 0x2A,
    externalPullups := false, wired := true }

/-- `WIRED`, at its default (00_scope.md R10). DESIGN CHOICE (log 4), unsafe. -/
abbrev wired : Bool := true

/-- The board of a run: any valid board wired as the parameter says, and nothing says which (00_scope.md R10; log 4). -/
def board : Board := if openBoard.valid then { openBoard with wired := wired } else exampleBoard

/-- FREE VALUE: the word of the k-th draw; a rule takes from it the bits it draws (00_scope.md R14; log 6). -/
opaque freeWord : Nat → Word

/-- FREE VALUE: the abort reason of a lost bus at the k-th draw, less one; so the reason has bits 16:0 not all zero
and bits 31:17 zero, and can be any such word (45_i2c_bus_engine.md R279; log 7). -/
opaque freeAbortReason : Nat → Fin 131071

/-- FREE VALUE: who acts after the k-th step (20_memory.md R90; log 8). -/
opaque nextTurn : Nat → Turn

/-- FREE VALUE: what a field of this many bits holds when it is assigned a value that does not fit it (the rules
40_register_access.md R151, R152 state none; log 18). -/
opaque overwideField : Nat → Word → Word

/-- FREE VALUE: what a caller variable holds after `x := <operation>` where the operation has no result, at the k-th draw: a
value, or what it held before (30_encoding.md R140 to R142 state none; log 35). -/
opaque noResult : Nat → Option Machine.Val

/-- FREE VALUE: the result of an operator on values of another kind than it asks for (30_encoding.md R141 states none;
log 16). -/
opaque wrongKind : Machine.Operator → List Machine.Val → Machine.Val

/-- FREE VALUE: the number that a value stands for where a number is needed and it is none (30_encoding.md R141 states none;
log 16). -/
opaque wrongKindWord : Machine.Val → Word

/-- FREE VALUE: the truth value of a value that is no boolean, where one is needed (30_encoding.md R141 states none; log 16). -/
opaque wrongKindBool : Machine.Val → Bool

end Config

end Sys2Proof
end

