-- ==== Sys2Proof/Syntax.lean ====
section
/-! DEFINITION. The instructions (one constructor per row of spec/opcode_table.json), their operands, and the caller
program's statements (30_encoding.md R140, R141). -/

namespace Sys2Proof

/-- A caller variable's name (10_state.md R31); names are numbers (log 14). -/
abbrev Var := Nat

/-- A statement label (30_encoding.md R141); labels are numbers. -/
abbrev Label := Nat

/-- A register of 30_encoding.md R112 with its unit or pin. -/
inductive Reg where
  | icCon (u : UnitId)
  | icTar (u : UnitId)
  | icSar (u : UnitId)
  | icDataCmd (u : UnitId)
  | icRawIntrStat (u : UnitId)
  | icClrRdReq (u : UnitId)
  | icClrTxAbrt (u : UnitId)
  | icEnable (u : UnitId)
  | icStatus (u : UnitId)
  | icTxAbrtSource (u : UnitId)
  | icEnableStatus (u : UnitId)
  | pad (n : Pin)
  | ctrl (n : Pin)
  | gpioOut
  | gpioOutSet
  | gpioOutClr
  | gpioOe
  | gpioOeSet
  | gpioOeClr
deriving DecidableEq, Repr

/-- A named register field (10_state.md R35 to R45, R50 to R52), in the order of those rules. `rawActivity` is ACTIVITY of
IC_RAW_INTR_STAT, `clrRdReq` and `clrTxAbrt` the bit that the clear registers return, `pinBit n` bit n of an SIO register. -/
inductive Field where
  | masterMode | speed | ic10BitAddrSlave | ic10BitAddrMaster | icRestartEn | icSlaveDisable
  | stopDetIfAddressed | txEmptyCtrl | rxFifoFullHldCtrl | stopDetIfMasterActive
  | tarAddress | gcOrStart | special
  | sarAddress
  | dat | cmd | stop | restart | firstDataByte
  | rxUnder | rxOver | rxFull | txOver | txEmpty | rdReq | txAbrt | rxDone | rawActivity | stopDet | startDet | genCall
  | restartDet
  | clrRdReq | clrTxAbrt
  | enable | abort | txCmdBlock
  | activity | tfnf | tfe | rfne | rff | mstActivity | slvActivity
  | abrt7bAddrNoack | txFlushCnt
  | icEn | slvDisabledWhileBusy | slvRxDataLost
  | slewfast | schmitt | pde | pue | drive | ie | od | iso
  | funcsel | outover | oeover | inover | irqover
  | pinBit (n : Pin)
deriving DecidableEq, Repr

/-- Expressions of the caller program (30_encoding.md R141). Numeric literals are 32-bit words, bytes, bus addresses or
pin indices, all as unsigned words (log 14). -/
inductive Expr where
  | lit (w : Word)
  | litBool (b : Bool)
  | var (x : Var)
  | eq (a b : Expr)
  | ne (a b : Expr)
  | not (a : Expr)
  | and (a b : Expr)
  | or (a b : Expr)
  | addMod256 (a b : Expr)
  | some (a : Expr)
  | none
  | slice (a : Expr) (hi lo : Nat)
  | bitAnd (a b : Expr)
  | bitOr (a b : Expr)
deriving DecidableEq, Repr

/-- The second operand of `write` (40_register_access.md R151): a value, or field assignments. -/
inductive WriteArg where
  | value (e : Expr)
  | fields (fs : List (Field × Expr))
deriving DecidableEq, Repr

/-- The instructions: 30 register accesses and 13 pseudo-instructions (30_encoding.md R112, R140, R144). `x` is the caller
variable of `x := …` (R141), if one is given: it takes the value read or the result, and before an operation whose result is none
it holds what the spec does not state (log 35). A raw write, which is no pseudo-instruction, has none (log 20). -/
inductive Instr where
  | readIcCon (x : Option Var) (u : UnitId)
  | writeIcCon (u : UnitId) (v : Word)
  | readIcTar (x : Option Var) (u : UnitId)
  | writeIcTar (u : UnitId) (v : Word)
  | readIcSar (x : Option Var) (u : UnitId)
  | writeIcSar (u : UnitId) (v : Word)
  | readIcDataCmd (x : Option Var) (u : UnitId)
  | writeIcDataCmdCw (u : UnitId) (dat : Byte)
  | writeIcDataCmdCr (u : UnitId) (dat : Byte)
  | writeIcDataCmdTd (u : UnitId) (dat : Byte)
  | readIcRawIntrStat (x : Option Var) (u : UnitId)
  | readIcClrRdReq (x : Option Var) (u : UnitId)
  | readIcClrTxAbrt (x : Option Var) (u : UnitId)
  | readIcEnable (x : Option Var) (u : UnitId)
  | writeIcEnable (u : UnitId) (v : Word)
  | readIcStatus (x : Option Var) (u : UnitId)
  | readIcTxAbrtSource (x : Option Var) (u : UnitId)
  | readIcEnableStatus (x : Option Var) (u : UnitId)
  | readPad (x : Option Var) (n : Pin)
  | writePad (n : Pin) (v : Word)
  | readCtrl (x : Option Var) (n : Pin)
  | writeCtrl (n : Pin) (v : Word)
  | readGpioOut (x : Option Var)
  | writeGpioOut (v : Word)
  | writeGpioOutSet (v : Word)
  | writeGpioOutClr (v : Word)
  | readGpioOe (x : Option Var)
  | writeGpioOe (v : Word)
  | writeGpioOeSet (v : Word)
  | writeGpioOeClr (v : Word)
  | read (x : Option Var) (r : Reg)
  | write (r : Reg) (arg : WriteArg) (x : Option Var := .none)
  | modify (r : Reg) (fs : List (Field × Expr)) (x : Option Var := .none)
  | configureDigitalOutputPin (n : Expr) (x : Option Var := .none)
  | configureSignalPin (n : Expr) (internalPullUp : Expr) (x : Option Var := .none)
  | waitForCondition (r : Reg) (mask value : Expr) (x : Option Var := .none)
  | configureAsController (targetAddress : Expr) (x : Option Var := .none)
  | writeByte (x : Option Var) (byte : Expr)
  | requestByteFromMemory (x : Option Var := .none)
  | receiveRequestedBytesFromMemory (x : Option Var)
  | configureAsTarget (address : Expr) (x : Option Var := .none)
  | receiveBytesToMemory (x : Option Var := .none)
  | serveBytesFromMemory (x : Option Var := .none)
deriving DecidableEq, Repr

/-- A raw access by the CPU, as the decoder of 30_encoding.md R113 takes it: formats MMIO-R and MMIO-W (R114). `width` is
in bytes. -/
inductive Access where
  | read (x : Option Var) (addr : Word) (width : Nat)
  | write (addr : Word) (width : Nat) (v : Word)
deriving DecidableEq, Repr

/-- The caller's statements (30_encoding.md R141), and a raw access (log 20). -/
inductive Stmt where
  | instr (i : Instr)
  | access (a : Access)
  | assign (x : Var) (e : Expr)
  | ifGoto (e : Expr) (l : Label)
  | goto (l : Label)
  | halt
deriving DecidableEq, Repr

/-- A labelled statement (30_encoding.md R141). -/
structure Line where
  label : Option Label
  stmt : Stmt
deriving DecidableEq, Repr

end Sys2Proof
end

