-- ==== Sys2Proof/Machine/Layout.lean ====
section
/-! DEFINITION. The parameters `Layout` and `ResetValues` (00_scope.md R3, R10; decisions D1, D2, D35). Every other definition takes
an address, an offset, a bit position or a reset value from `Config.layout` and `Config.resetValues`. -/

namespace Sys2Proof

/-- The register windows (30_encoding.md R110). -/
inductive Window where
  | i2c (u : UnitId)
  | pads
  | iobank
  | sio
deriving DecidableEq, Repr

/-- The window that holds a register (30_encoding.md R112). -/
def Reg.window : Reg → Window
  | .icCon u | .icTar u | .icSar u | .icDataCmd u | .icRawIntrStat u | .icClrRdReq u | .icClrTxAbrt u | .icEnable u
  | .icStatus u | .icTxAbrtSource u | .icEnableStatus u => .i2c u
  | .pad _ => .pads
  | .ctrl _ => .iobank
  | .gpioOut | .gpioOutSet | .gpioOutClr | .gpioOe | .gpioOeSet | .gpioOeClr => .sio

/-- `Layout`: "base addresses, offsets, bit positions" (00_scope.md R10). `bits` gives a field's highest and lowest bit. -/
structure Layout where
  base : Window → Nat
  offset : Reg → Nat
  bits : Field → Nat × Nat

/-- `ResetValues`: the "hardware reset value of every register" (00_scope.md R10; 10_state.md R54). -/
structure ResetValues where
  icCon : Word
  icTar : Word
  icSar : Word
  icEnable : Word
  txAbrt : Bool
  rdReq : Bool
  abrtSrc : Word
  pad : Word
  ctrl : Word
  sioOut : Word
  sioOe : Word
deriving DecidableEq, Repr

/-! ## The defaults: the RP2350 -/

/-- Base addresses (30_encoding.md R110). -/
@[simp] def rp2350Base : Window → Nat
  | .i2c u => if u = 0 then 0x40090000 else 0x40098000
  | .pads => 0x40038000
  | .iobank => 0x40028000
  | .sio => 0xD0000000

/-- Offsets in the window (30_encoding.md R111, R112). -/
@[simp] def rp2350Offset : Reg → Nat
  | .icCon _ => 0x000
  | .icTar _ => 0x004
  | .icSar _ => 0x008
  | .icDataCmd _ => 0x010
  | .icRawIntrStat _ => 0x034
  | .icClrRdReq _ => 0x050
  | .icClrTxAbrt _ => 0x054
  | .icEnable _ => 0x06C
  | .icStatus _ => 0x070
  | .icTxAbrtSource _ => 0x080
  | .icEnableStatus _ => 0x09C
  | .pad n => 0x004 + 4 * n.val
  | .ctrl n => 0x004 + 8 * n.val
  | .gpioOut => 0x010
  | .gpioOutSet => 0x018
  | .gpioOutClr => 0x020
  | .gpioOe => 0x030
  | .gpioOeSet => 0x038
  | .gpioOeClr => 0x040

/-- Bit positions (10_state.md R35 to R45, R50, R51); bit n for pin n (R52). -/
@[simp] def rp2350Bits : Field → Nat × Nat
  | .masterMode => (0, 0)
  | .speed => (2, 1)
  | .ic10BitAddrSlave => (3, 3)
  | .ic10BitAddrMaster => (4, 4)
  | .icRestartEn => (5, 5)
  | .icSlaveDisable => (6, 6)
  | .stopDetIfAddressed => (7, 7)
  | .txEmptyCtrl => (8, 8)
  | .rxFifoFullHldCtrl => (9, 9)
  | .stopDetIfMasterActive => (10, 10)
  | .tarAddress => (9, 0)
  | .gcOrStart => (10, 10)
  | .special => (11, 11)
  | .sarAddress => (9, 0)
  | .dat => (7, 0)
  | .cmd => (8, 8)
  | .stop => (9, 9)
  | .restart => (10, 10)
  | .firstDataByte => (11, 11)
  | .rxUnder => (0, 0)
  | .rxOver => (1, 1)
  | .rxFull => (2, 2)
  | .txOver => (3, 3)
  | .txEmpty => (4, 4)
  | .rdReq => (5, 5)
  | .txAbrt => (6, 6)
  | .rxDone => (7, 7)
  | .rawActivity => (8, 8)
  | .stopDet => (9, 9)
  | .startDet => (10, 10)
  | .genCall => (11, 11)
  | .restartDet => (12, 12)
  | .clrRdReq => (0, 0)
  | .clrTxAbrt => (0, 0)
  | .enable => (0, 0)
  | .abort => (1, 1)
  | .txCmdBlock => (2, 2)
  | .activity => (0, 0)
  | .tfnf => (1, 1)
  | .tfe => (2, 2)
  | .rfne => (3, 3)
  | .rff => (4, 4)
  | .mstActivity => (5, 5)
  | .slvActivity => (6, 6)
  | .abrt7bAddrNoack => (0, 0)
  | .txFlushCnt => (31, 23)
  | .icEn => (0, 0)
  | .slvDisabledWhileBusy => (1, 1)
  | .slvRxDataLost => (2, 2)
  | .slewfast => (0, 0)
  | .schmitt => (1, 1)
  | .pde => (2, 2)
  | .pue => (3, 3)
  | .drive => (5, 4)
  | .ie => (6, 6)
  | .od => (7, 7)
  | .iso => (8, 8)
  | .funcsel => (4, 0)
  | .outover => (13, 12)
  | .oeover => (15, 14)
  | .inover => (17, 16)
  | .irqover => (29, 28)
  | .pinBit n => (n.val, n.val)

namespace Config

/-- `Layout`, at its default (00_scope.md R2, R10). DESIGN CHOICE (log 1), unsafe. -/
def layout : Layout := { base := rp2350Base, offset := rp2350Offset, bits := rp2350Bits }

/-- `ResetValues`, at its default (00_scope.md R10; 10_state.md R54). DESIGN CHOICE (log 2), unsafe. -/
def resetValues : ResetValues :=
  { icCon := 0x65, icTar := 0x055, icSar := 0x055, icEnable := 0, txAbrt := false, rdReq := false, abrtSrc := 0,
    pad := 0x116, ctrl := 0x1F, sioOut := 0, sioOe := 0 }

end Config

end Sys2Proof
end

