-- ==== Sys2Proof/Machine/Fields.lean ====
section
/-! DEFINITION. Register fields: their places and masks, reading one, replacing some, and the assembly of a word from fields
(00_scope.md R12, R13; 30_encoding.md R116; 40_register_access.md R151, R152). -/

namespace Sys2Proof
namespace Machine

/-- A bit as a word. -/
def bit (b : Bool) : Word := if b then 1 else 0

/-- The highest and the lowest bit of a field, from the parameter `Layout` (00_scope.md R3). -/
def fieldBits (f : Field) : Nat × Nat := Config.layout.bits f

/-- The width of a field in bits. -/
def fieldWidth (f : Field) : Nat := (fieldBits f).1 - (fieldBits f).2 + 1

/-- The lowest `n` bits set. -/
def lowMask (n : Nat) : Word := BitVec.ofNat 32 (2 ^ n - 1)

/-- The bits of a field. -/
def fieldMask (f : Field) : Word := lowMask (fieldWidth f) <<< (fieldBits f).2

/-- The bits of some fields. -/
def fieldsMask (fs : List Field) : Word := fs.foldl (fun m f => m ||| fieldMask f) 0

/-- What a field of `width` bits holds when it is assigned `e`: `e`, or a free value if `e` does not fit (log 18). -/
def fieldValue (width : Nat) (e : Word) : Word :=
  if e.toNat < 2 ^ width then e else Config.overwideField width e &&& lowMask width

/-- `w` with field `f` replaced by `e`, every other bit as it was (40_register_access.md R152). -/
def insertField (f : Field) (e w : Word) : Word :=
  (w &&& ~~~fieldMask f) ||| (fieldValue (fieldWidth f) e <<< (fieldBits f).2)

/-- `w` with each named field replaced (40_register_access.md R152). -/
def insertFields (fs : List (Field × Word)) (w : Word) : Word :=
  fs.foldl (fun acc p => insertField p.1 p.2 acc) w

/-- `assemble(REG, …)`: every unnamed field 0 (40_register_access.md R151). -/
def assemble (fs : List (Field × Word)) : Word := insertFields fs 0

/-- The value of a field. -/
def getField (f : Field) (w : Word) : Word := (w >>> (fieldBits f).2) &&& lowMask (fieldWidth f)

/-- The value of a field of one bit. -/
def getFlag (f : Field) (w : Word) : Bool := w.getLsbD (fieldBits f).2

/-- A field of one bit, in its place. -/
def flag (f : Field) (b : Bool) : Word := bit b <<< (fieldBits f).2

end Machine
end Sys2Proof
end

