-- ==== Sys2Proof/WellFormed.lean ====
section
/-! DEFINITION. Well-formed instructions, statements and programs. The value patterns are the `match` and `mask` columns of
spec/opcode_table.json, written per row; the decoder has its own table per register (30_encoding.md R112). -/

namespace Sys2Proof

/-- The fields of a register (10_state.md R35 to R38, R42, R50 to R52). Read-only registers have none to assign. -/
def Reg.hasField : Reg → Field → Bool
  | .icCon _, f => [Field.masterMode, .speed, .ic10BitAddrSlave, .ic10BitAddrMaster, .icRestartEn, .icSlaveDisable,
      .stopDetIfAddressed, .txEmptyCtrl, .rxFifoFullHldCtrl, .stopDetIfMasterActive].contains f
  | .icTar _, f => [Field.tarAddress, .gcOrStart, .special].contains f
  | .icSar _, f => f == .sarAddress
  | .icDataCmd _, f => [Field.dat, .cmd, .stop, .restart, .firstDataByte].contains f
  | .icEnable _, f => [Field.enable, .abort, .txCmdBlock].contains f
  | .pad _, f => [Field.slewfast, .schmitt, .pde, .pue, .drive, .ie, .od, .iso].contains f
  | .ctrl _, f => [Field.funcsel, .outover, .oeover, .inover, .irqover].contains f
  | .gpioOut, .pinBit _ | .gpioOutSet, .pinBit _ | .gpioOutClr, .pinBit _ => true
  | .gpioOe, .pinBit _ | .gpioOeSet, .pinBit _ | .gpioOeClr, .pinBit _ => true
  | _, _ => false

/-- Each assigned field is the register's, and no field is assigned twice. -/
def fieldsWf (r : Reg) (fs : List (Field × Expr)) : Bool :=
  fs.all (fun p => r.hasField p.1) && decide ((fs.map Prod.fst).Nodup)

/-- `e[hi:lo]` names bits of a 32-bit word, high first (00_scope.md R12). -/
def Expr.wf : Expr → Bool
  | .lit _ | .litBool _ | .var _ | .none => true
  | .eq a b | .ne a b | .and a b | .or a b | .addMod256 a b | .bitAnd a b | .bitOr a b => a.wf && b.wf
  | .not a | .some a => a.wf
  | .slice a hi lo => a.wf && decide (lo ≤ hi) && decide (hi < 32)

/-- The operands of a field list. -/
def fieldExprsWf (fs : List (Field × Expr)) : Bool := fs.all fun p => p.2.wf

/-- Well-formed instructions: the written values of the access rows meet their rows' patterns
(spec/opcode_table.json `match`, `mask`), field lists are the register's, expressions are well formed. -/
def Instr.wf : Instr → Bool
  | .writeIcCon _ v => v &&& 0xFFFFFC00 == 0
  | .writeIcTar _ v => v &&& 0xFFFFF000 == 0
  | .writeIcSar _ v => v &&& 0xFFFFFC00 == 0
  | .writeIcEnable _ v => v &&& 0xFFFFFFFE == 0
  | .writePad _ v => v &&& 0xFFFFFE00 == 0
  | .writeCtrl _ v => v &&& 0xFFFFFFE0 == 0
  | .writeGpioOut v | .writeGpioOutSet v | .writeGpioOutClr v => v &&& 0xC0000000 == 0
  | .writeGpioOe v | .writeGpioOeSet v | .writeGpioOeClr v => v &&& 0xC0000000 == 0
  | .writeIcDataCmdCw _ _ | .writeIcDataCmdCr _ _ | .writeIcDataCmdTd _ _ => true
  | .readIcCon _ _ | .readIcTar _ _ | .readIcSar _ _ | .readIcDataCmd _ _ | .readIcRawIntrStat _ _ => true
  | .readIcClrRdReq _ _ | .readIcClrTxAbrt _ _ | .readIcEnable _ _ | .readIcStatus _ _ => true
  | .readIcTxAbrtSource _ _ | .readIcEnableStatus _ _ | .readPad _ _ | .readCtrl _ _ => true
  | .readGpioOut _ | .readGpioOe _ => true
  | .read _ _ => true
  | .write _ (.value e) _ => e.wf
  | .write r (.fields fs) _ => fieldsWf r fs && fieldExprsWf fs
  | .modify r fs _ => fieldsWf r fs && fieldExprsWf fs
  | .configureDigitalOutputPin n _ => n.wf
  | .configureSignalPin n p _ => n.wf && p.wf
  | .waitForCondition _ m v _ => m.wf && v.wf
  | .configureAsController a _ => a.wf
  | .writeByte _ b => b.wf
  | .configureAsTarget a _ => a.wf
  | .requestByteFromMemory _ | .receiveRequestedBytesFromMemory _ => true
  | .receiveBytesToMemory _ | .serveBytesFromMemory _ => true

/-- Well-formed statements: a jump's label is one of the program's. -/
def Stmt.wf (labels : List Label) : Stmt → Bool
  | .instr i => i.wf
  | .access _ => true
  | .assign _ e => e.wf
  | .ifGoto e l => e.wf && labels.contains l
  | .goto l => labels.contains l
  | .halt => true

/-- The labels of a program, in order. -/
def programLabels (p : List Line) : List Label := p.filterMap Line.label

/-- A well-formed caller program: labels are distinct and every statement is well formed (30_encoding.md R141). -/
def programWf (p : List Line) : Bool :=
  decide ((programLabels p).Nodup) && p.all fun ln => ln.stmt.wf (programLabels p)

end Sys2Proof
end

