-- ==== Sys2Proof/Decode.lean ====
section
/-! DEFINITION. The decoder of 30_encoding.md R113, total on every access, then the encoder, both from the tables R110, R111,
R112, R115. A pseudo-instruction has no encoding (R144), so `encode` gives one only for the 30 access rows. -/

namespace Sys2Proof

open Machine

/-- Why the decoder refuses an access. `access` and `unadmitted` are the faults of 30_encoding.md R113. `noForm` is a write
of IC_DATA_CMD without a reserved bit whose value is none of CW, CR, TD: R113 admits it, R156 then refuses the value (log 26). -/
inductive DecodeError where
  | access (addr : Word)
  | unadmitted (addr : Word)
  | noForm (u : UnitId) (v : Word)
deriving DecidableEq, Repr

/-- The three command forms of 30_encoding.md R115. -/
inductive CommandForm where
  | cw
  | cr
  | td
deriving DecidableEq, Repr

/-- A form's bits other than DAT (30_encoding.md R115): RESTART is 0 in each. -/
def formWord : CommandForm → Word
  | .cw => assemble [(.cmd, 0), (.stop, 1)]
  | .cr => assemble [(.cmd, 1), (.stop, 1)]
  | .td => assemble [(.cmd, 0), (.stop, 0)]

/-- `form(v)` of 40_register_access.md R156: every bit but DAT's is the form's. -/
def commandForm (v : Word) : Option CommandForm :=
  [CommandForm.cw, .cr, .td].find? fun f => v &&& ~~~fieldMask .dat == formWord f

/-- The byte of a command word (30_encoding.md R116). -/
def commandByte (v : Word) : Byte := (getField .dat v).truncate 8

/-- The command word of a form (30_encoding.md R115). -/
def commandWord (f : CommandForm) (dat : Byte) : Word := formWord f ||| (dat.zeroExtend 32 <<< (fieldBits .dat).2)

/-- The address of a register: its offset from its window's base (30_encoding.md R110 to R112). -/
def Reg.addr (r : Reg) : Word := BitVec.ofNat 32 (Config.layout.base r.window + Config.layout.offset r)

/-- The windows, in the order in which 30_encoding.md R110 lists them. -/
def windows : List Window := [.i2c 0, .i2c 1, .pads, .iobank, .sio]

/-- The registers of a window (30_encoding.md R112). -/
def windowRegs : Window → List Reg
  | .i2c u => [.icCon u, .icTar u, .icSar u, .icDataCmd u, .icRawIntrStat u, .icClrRdReq u, .icClrTxAbrt u, .icEnable u,
      .icStatus u, .icTxAbrtSource u, .icEnableStatus u]
  | .pads => (List.finRange Config.numGpio).map .pad
  | .iobank => (List.finRange Config.numGpio).map .ctrl
  | .sio => [.gpioOut, .gpioOutSet, .gpioOutClr, .gpioOe, .gpioOeSet, .gpioOeClr]

/-- Whether an address lies in a window (30_encoding.md R113). -/
def inWindow (x : Window) (a : Nat) : Bool :=
  decide (Config.layout.base x ≤ a) && decide (a < Config.layout.base x + Config.windowSpan)

/-- The register at an address, in whichever direction it is admitted: the first window that holds the address decides
(30_encoding.md R113). -/
def regAt (addr : Word) : Option Reg :=
  match windows.find? fun x => inWindow x addr.toNat with
  | some x => (windowRegs x).find? fun r => Config.layout.base x + Config.layout.offset r == addr.toNat
  | none => none

/-- The rows of 30_encoding.md R112 with dir R. -/
def Reg.readable : Reg → Bool
  | .gpioOutSet | .gpioOutClr | .gpioOeSet | .gpioOeClr => false
  | _ => true

/-- The rows of 30_encoding.md R112 with dir W. -/
def Reg.writable : Reg → Bool
  | .icRawIntrStat _ | .icClrRdReq _ | .icClrTxAbrt _ | .icStatus _ | .icTxAbrtSource _ | .icEnableStatus _ => false
  | _ => true

/-- The fields that a read of a register can show from what is stored (40_register_access.md R153): IC_CON bit 10 and the bits 1
and 2 of IC_ENABLE read 0. -/
def Reg.readFields : Reg → List Field
  | .icCon _ => [.masterMode, .speed, .ic10BitAddrSlave, .ic10BitAddrMaster, .icRestartEn, .icSlaveDisable,
      .stopDetIfAddressed, .txEmptyCtrl, .rxFifoFullHldCtrl]
  | .icTar _ => [.tarAddress, .gcOrStart, .special]
  | .icSar _ => [.sarAddress]
  | .icEnable _ => [.enable]
  | .pad _ => [.slewfast, .schmitt, .pde, .pue, .drive, .ie, .od, .iso]
  | .ctrl _ => [.funcsel, .outover, .oeover, .inover, .irqover]
  | .gpioOut | .gpioOe => (List.finRange Config.numGpio).map .pinBit
  | _ => []

/-- The fields that a write may set (30_encoding.md R112): the overrides of CTRL must be 0. For IC_DATA_CMD all of them:
its reserved bits 31:12 are refused here (20_memory.md R86; log 33), the three forms are checked against the role by
40_register_access.md R156. -/
def Reg.writeFields : Reg → List Field
  | .icDataCmd _ => [.dat, .cmd, .stop, .restart, .firstDataByte]
  | .ctrl _ => [.funcsel]
  | .gpioOutSet | .gpioOutClr | .gpioOeSet | .gpioOeClr => (List.finRange Config.numGpio).map .pinBit
  | r => r.readFields

/-- The bits that a read can show from what is stored. -/
def Reg.readMask (r : Reg) : Word := fieldsMask r.readFields

/-- The bits that a write may set. -/
def Reg.writeMask (r : Reg) : Word := fieldsMask r.writeFields

/-- The value pattern of a write: no reserved or read-only bit is set (20_memory.md R86; 30_encoding.md R112). -/
def Reg.admitsValue (r : Reg) (v : Word) : Bool := v &&& ~~~r.writeMask == 0

/-- The instruction that reads a register, if a row admits it. -/
def readInstr (x : Option Var) : Reg → Option Instr
  | .icCon u => some (.readIcCon x u)
  | .icTar u => some (.readIcTar x u)
  | .icSar u => some (.readIcSar x u)
  | .icDataCmd u => some (.readIcDataCmd x u)
  | .icRawIntrStat u => some (.readIcRawIntrStat x u)
  | .icClrRdReq u => some (.readIcClrRdReq x u)
  | .icClrTxAbrt u => some (.readIcClrTxAbrt x u)
  | .icEnable u => some (.readIcEnable x u)
  | .icStatus u => some (.readIcStatus x u)
  | .icTxAbrtSource u => some (.readIcTxAbrtSource x u)
  | .icEnableStatus u => some (.readIcEnableStatus x u)
  | .pad n => some (.readPad x n)
  | .ctrl n => some (.readCtrl x n)
  | .gpioOut => some (.readGpioOut x)
  | .gpioOe => some (.readGpioOe x)
  | .gpioOutSet | .gpioOutClr | .gpioOeSet | .gpioOeClr => none

/-- The command instruction of a value written to IC_DATA_CMD (30_encoding.md R115). -/
def commandInstr (u : UnitId) (v : Word) : Option Instr :=
  match commandForm v with
  | some .cw => some (.writeIcDataCmdCw u (commandByte v))
  | some .cr => some (.writeIcDataCmdCr u (commandByte v))
  | some .td => some (.writeIcDataCmdTd u (commandByte v))
  | none => none

/-- The instruction that writes a value to a register; the value has met the register's pattern. -/
def writeInstr (addr v : Word) : Reg → Except DecodeError Instr
  | .icCon u => .ok (.writeIcCon u v)
  | .icTar u => .ok (.writeIcTar u v)
  | .icSar u => .ok (.writeIcSar u v)
  | .icDataCmd u =>
    match commandInstr u v with
    | some i => .ok i
    | none => .error (.noForm u v)
  | .icEnable u => .ok (.writeIcEnable u v)
  | .pad n => .ok (.writePad n v)
  | .ctrl n => .ok (.writeCtrl n v)
  | .gpioOut => .ok (.writeGpioOut v)
  | .gpioOutSet => .ok (.writeGpioOutSet v)
  | .gpioOutClr => .ok (.writeGpioOutClr v)
  | .gpioOe => .ok (.writeGpioOe v)
  | .gpioOeSet => .ok (.writeGpioOeSet v)
  | .gpioOeClr => .ok (.writeGpioOeClr v)
  | .icRawIntrStat _ | .icClrRdReq _ | .icClrTxAbrt _ | .icStatus _ | .icTxAbrtSource _ | .icEnableStatus _ =>
    .error (.unadmitted addr)

/-- The first check of 30_encoding.md R113: a 32-bit access at an address with `addr[1:0] = 0` (20_memory.md R83, R84). -/
def wordAligned (addr : Word) (width : Nat) : Bool := width == 4 && addr &&& 3 == 0

/-- The decoder of 30_encoding.md R113. -/
def decode : Access → Except DecodeError Instr
  | .read x addr width =>
    if wordAligned addr width then
      match (regAt addr).bind (readInstr x) with
      | some i => .ok i
      | none => .error (.unadmitted addr)
    else .error (.access addr)
  | .write addr width v =>
    if wordAligned addr width then
      match regAt addr with
      | some r => if r.writable && r.admitsValue v then writeInstr addr v r else .error (.unadmitted addr)
      | none => .error (.unadmitted addr)
    else .error (.access addr)

/-- A 32-bit read of a register. -/
def readAccess (x : Option Var) (r : Reg) : Access := .read x r.addr 4

/-- A 32-bit write of a register. -/
def writeAccess (r : Reg) (v : Word) : Access := .write r.addr 4 v

/-- The access that an access row stands for (30_encoding.md R112, R114, R115); none for a pseudo-instruction, whose
encoding spec/opcode_table.json gives as none. -/
def encode : Instr → Option Access
  | .readIcCon x u => some (readAccess x (.icCon u))
  | .writeIcCon u v => some (writeAccess (.icCon u) v)
  | .readIcTar x u => some (readAccess x (.icTar u))
  | .writeIcTar u v => some (writeAccess (.icTar u) v)
  | .readIcSar x u => some (readAccess x (.icSar u))
  | .writeIcSar u v => some (writeAccess (.icSar u) v)
  | .readIcDataCmd x u => some (readAccess x (.icDataCmd u))
  | .writeIcDataCmdCw u b => some (writeAccess (.icDataCmd u) (commandWord .cw b))
  | .writeIcDataCmdCr u b => some (writeAccess (.icDataCmd u) (commandWord .cr b))
  | .writeIcDataCmdTd u b => some (writeAccess (.icDataCmd u) (commandWord .td b))
  | .readIcRawIntrStat x u => some (readAccess x (.icRawIntrStat u))
  | .readIcClrRdReq x u => some (readAccess x (.icClrRdReq u))
  | .readIcClrTxAbrt x u => some (readAccess x (.icClrTxAbrt u))
  | .readIcEnable x u => some (readAccess x (.icEnable u))
  | .writeIcEnable u v => some (writeAccess (.icEnable u) v)
  | .readIcStatus x u => some (readAccess x (.icStatus u))
  | .readIcTxAbrtSource x u => some (readAccess x (.icTxAbrtSource u))
  | .readIcEnableStatus x u => some (readAccess x (.icEnableStatus u))
  | .readPad x n => some (readAccess x (.pad n))
  | .writePad n v => some (writeAccess (.pad n) v)
  | .readCtrl x n => some (readAccess x (.ctrl n))
  | .writeCtrl n v => some (writeAccess (.ctrl n) v)
  | .readGpioOut x => some (readAccess x .gpioOut)
  | .writeGpioOut v => some (writeAccess .gpioOut v)
  | .writeGpioOutSet v => some (writeAccess .gpioOutSet v)
  | .writeGpioOutClr v => some (writeAccess .gpioOutClr v)
  | .readGpioOe x => some (readAccess x .gpioOe)
  | .writeGpioOe v => some (writeAccess .gpioOe v)
  | .writeGpioOeSet v => some (writeAccess .gpioOeSet v)
  | .writeGpioOeClr v => some (writeAccess .gpioOeClr v)
  | .read _ _ | .write _ _ _ | .modify _ _ _ => none
  | .configureDigitalOutputPin _ _ | .configureSignalPin _ _ _ | .waitForCondition _ _ _ _ => none
  | .configureAsController _ _ | .writeByte _ _ | .requestByteFromMemory _ => none
  | .receiveRequestedBytesFromMemory _ | .configureAsTarget _ _ => none
  | .receiveBytesToMemory _ | .serveBytesFromMemory _ => none

/-- An access as one number, the written value first: bits 31:0 the value (the bits spec/opcode_table.json numbers), bits
63:32 the address, bit 64 the direction (1 a read), bits 71:65 the width in bytes. The order is the model's (log 22). -/
def accessOfBits (w : Nat) : Access :=
  let addr := BitVec.ofNat 32 (w / 2 ^ 32)
  let width := w / 2 ^ 65 % 128
  if w / 2 ^ 64 % 2 = 1 then .read none addr width else .write addr width (BitVec.ofNat 32 w)

/-- The access that a table word stands for. A row of 32 bits is a written value alone, without the address that would tell
one row from another; only the values of IC_DATA_CMD name their rows, so such a word is taken as a command word written to
unit 0 (log 22). A longer word carries its address. -/
def tableAccess (nbits w : Nat) : Access :=
  if nbits = 32 then writeAccess (.icDataCmd 0) (BitVec.ofNat 32 w) else accessOfBits w

/-- The instruction that the decoder reads from a table word. -/
def decodeTableWord (nbits w : Nat) : Option Instr :=
  match decode (tableAccess nbits w) with
  | .ok i => some i
  | .error _ => none

end Sys2Proof
end

