-- ==== Sys2Proof/Machine/State.lean ====
section
/-! DEFINITION. The machine's state as plain data (10_state.md), the fault reasons (60_exceptions.md R311), the refusals, and
the launch state (10_state.md R54; 70_reset_and_hazards.md R340). -/

namespace Sys2Proof
namespace Machine

/-- The fault reasons, the complete list of 60_exceptions.md R311. The operation `raise` (Ops.lean) writes one into `FAULT`
(R313); a step of a machine whose `FAULT` is set answers it. Each is safe: the spec stops where the chip might go on. -/
inductive Fault where
  /-- `F_ACCESS(addr)`: the decoder (30_encoding.md R113), on an access not 32 bits wide or misaligned. Safe. -/
  | access (addr : Word)
  /-- `F_UNADMITTED(addr)`: the decoder, a read or write the table R112 does not admit, `modify` (R152) of a register not
  in its list, a poll (R200) of a register with a read side effect. Safe. -/
  | unadmitted (addr : Word)
  /-- `F_UNADMITTED_CMD(u, v)`: a write of IC_DATA_CMD (R156) whose value is no form of the unit's role. Safe. -/
  | unadmittedCmd (u : UnitId) (v : Word)
  /-- `F_OP_ARG`: a pin index or bus address out of range (R173, R174, R211, R241). Safe. -/
  | opArg
  /-- `F_UNWRITTEN_VAR`: an expression reads an unassigned caller variable (10_state.md R31, 30_encoding.md R142). Safe. -/
  | unwrittenVar
  /-- `F_CFG_WHILE_ENABLED(u, REG)`: IC_CON, IC_TAR or IC_SAR written while ENABLE = 1 (R154). Safe. -/
  | cfgWhileEnabled (u : UnitId) (r : Reg)
  /-- `F_ILLEGAL_CONFIG(u)`: the enabling write of IC_ENABLE (R160), on a configuration of neither role. Safe. -/
  | illegalConfig (u : UnitId)
  /-- `F_PIN_NOT_READY(u)`: the enabling write of IC_ENABLE (R160), with a pin not in its I2C role. Safe. -/
  | pinNotReady (u : UnitId)
  /-- `F_DISABLE_ACTIVE(u)`: the disabling write of IC_ENABLE (R160), with work pending. Safe. -/
  | disableActive (u : UnitId)
  /-- `F_UNIT_DISABLED(u)`: IC_DATA_CMD accessed while disabled (R156, R157). Safe. -/
  | unitDisabled (u : UnitId)
  /-- `F_WRITE_WHILE_ABORTED(u)`: a controller command while TX_ABRT = 1 (R156). Safe. -/
  | writeWhileAborted (u : UnitId)
  /-- `F_OVERLAPPED_TRANSACTION(u)`: a controller command before the first completes (R156). Safe. -/
  | overlappedTransaction (u : UnitId)
  /-- `F_TX_OVERFLOW(u)`: a command written with TXF full (R156). Safe. -/
  | txOverflow (u : UnitId)
  /-- `F_RX_UNDERFLOW(u)`: IC_DATA_CMD read with RXF empty (R157). Safe. -/
  | rxUnderflow (u : UnitId)
  /-- `F_TARGET_RX_OVERFLOW(t)`: BUS-WRITE acknowledged with RXF(t) full (45_i2c_bus_engine.md R274). Safe. -/
  | targetRxOverflow (t : UnitId)
  /-- `F_CTRL_RX_OVERFLOW(c)`: BUS-READ-DATA with RXF(c) full (45_i2c_bus_engine.md R277). Safe. -/
  | ctrlRxOverflow (c : UnitId)
  /-- `F_TARGET_TX_STALE(t)`: BUS-READ-ADDR acknowledged with TXF(t) not empty (45_i2c_bus_engine.md R276). Safe. -/
  | targetTxStale (t : UnitId)
deriving DecidableEq, Repr

/-- Why a step has no meaning. None of these is a behaviour of the hardware: each is a caller text outside the syntax of
30_encoding.md R141. -/
inductive Refusal where
  /-- An instruction without a meaning yet. Raised by `exec` alone. Safe. -/
  | notModelled (mnemonic : String)
  /-- A field list that is not the register's, a slice that names no bits, a jump to a label the program lacks
  (log 17). Raised by `write`, `modify`, the evaluation of an expression, a jump. Safe. -/
  | illFormed
deriving DecidableEq, Repr

/-- `ROLE(u)` (10_state.md R46, R47). -/
inductive Role where
  | none
  | controller
  | target
deriving DecidableEq, Repr

/-- `PHASE` (10_state.md R48). -/
inductive Phase where
  | idle
  | readPending (c t : UnitId)
deriving DecidableEq, Repr

/-- A TX FIFO entry (10_state.md R46). -/
structure Cmd where
  dat : Byte
  cmd : Bool
  stop : Bool
  restart : Bool
deriving DecidableEq, Repr

/-- The registers and hidden state of one I2C unit (10_state.md R35 to R46). FIFOs are head first. -/
structure UnitState where
  icCon : Word
  icTar : Word
  icSar : Word
  icEnable : Word
  txf : List Cmd
  rxf : List Byte
  txAbrt : Bool
  rdReq : Bool
  abrtSrc : Word
  role : Role
deriving DecidableEq, Repr

/-- The program counter (10_state.md R32). -/
structure Pc where
  stmt : Nat
  step : Nat
deriving DecidableEq, Repr

/-- The machine's state. `board` holds the parameters of a run; `drawCount`, `turnCount` and `turn` are the model's own
(log 6, log 8). -/
structure State where
  board : Board
  program : List Line
  pc : Pc
  vars : List (Var × Val)
  latch : Word
  requested : Bool
  memoryValue : Option Byte
  targetAddress : BusAddr
  units : Vector UnitState 2
  phase : Phase
  pads : Vector Word Config.numGpio
  ctrls : Vector Word Config.numGpio
  sioOut : Word
  sioOe : Word
  fault : Option Fault
  turn : Turn
  turnCount : Nat
  drawCount : Nat
deriving DecidableEq, Repr

/-- A unit at reset (10_state.md R54): the parameter `ResetValues`, with empty FIFOs and no role. -/
def UnitState.reset : UnitState :=
  { icCon := Config.resetValues.icCon, icTar := Config.resetValues.icTar, icSar := Config.resetValues.icSar,
    icEnable := Config.resetValues.icEnable, txf := [], rxf := [], txAbrt := Config.resetValues.txAbrt,
    rdReq := Config.resetValues.rdReq, abrtSrc := Config.resetValues.abrtSrc, role := .none }

/-- The launch state (10_state.md R54; 70_reset_and_hazards.md R340). The board is any valid one (log 4), the program is
loaded from outside (log 21), `targetAddress` and `latch` have no value in the spec (log 12, log 13), and `turn`,
`turnCount`, `drawCount` are the model's own (log 6, log 8). -/
def State.reset : State :=
  { board := Config.board, program := [], pc := ⟨0, 0⟩, vars := [], latch := 0,
    requested := false, memoryValue := .none, targetAddress := 0,
    units := Vector.replicate 2 UnitState.reset, phase := .idle,
    pads := Vector.replicate Config.numGpio Config.resetValues.pad,
    ctrls := Vector.replicate Config.numGpio Config.resetValues.ctrl,
    sioOut := Config.resetValues.sioOut, sioOe := Config.resetValues.sioOe, fault := .none, turn := .cpu, turnCount := 0, drawCount := 0 }

end Machine
end Sys2Proof
end

