-- ==== Sys2Proof/Machine/Operands.lean ====
section
/-! DEFINITION. Operand forms: the stored record of a command word (40_register_access.md R156), caller variables and expressions
(10_state.md R31; 30_encoding.md R141, R142). -/

namespace Sys2Proof
namespace Machine

/-- The FIFO entry of a command word (40_register_access.md R156). -/
def cmdOf (v : Word) : Cmd :=
  { dat := (getField .dat v).truncate 8, cmd := getFlag .cmd v, stop := getFlag .stop v, restart := getFlag .restart v }

/-- The value of a caller variable, if it has been assigned (10_state.md R31). -/
def lookupVar (x : Var) : List (Var × Val) → Option Val
  | [] => .none
  | (y, v) :: rest => if x = y then some v else lookupVar x rest

/-- The variables after `x := v`; the list stays sorted by name (log 31). -/
def assignVar (x : Var) (v : Val) : List (Var × Val) → List (Var × Val)
  | [] => [(x, v)]
  | (y, w) :: rest =>
    if x < y then (x, v) :: (y, w) :: rest
    else if x = y then (x, v) :: rest
    else (y, w) :: assignVar x v rest

/-- The canonical form of the variables: names strictly rising (log 31). -/
abbrev VarsWf (l : List (Var × Val)) : Prop := (l.map Prod.fst).Pairwise (· < ·)

/-- Why an expression has no value: a variable never assigned (30_encoding.md R142), or a slice that names no bits of a word
(log 17). -/
inductive EvalError where
  | unwritten
  | illFormed
deriving DecidableEq, Repr

/-- The word of a value; a free value if it is none (log 16). -/
def Val.toWord : Val → Word
  | .word w => w
  | .bool b => Config.wrongKindWord (.bool b)
  | .opt o => Config.wrongKindWord (.opt o)

/-- The word of a value that is assigned to a register field: as `Val.toWord`, but a boolean is 1 or 0, as in `PUE = internalPullUp`
(41_pin_configuration.md R174; for every field, log 34). -/
def Val.toField : Val → Word
  | .bool b => bit b
  | .word w => w
  | .opt o => Config.wrongKindWord (.opt o)

/-- The truth value of a value; a free value if it is no boolean (log 16). -/
def Val.toBool : Val → Bool
  | .bool b => b
  | .word w => Config.wrongKindBool (.word w)
  | .opt o => Config.wrongKindBool (.opt o)

/-- Applies an operator of one word; on another kind its result is a free value (log 16). -/
def applyWord (op : Operator) (f : Word → Val) : Val → Val
  | .word x => f x
  | a => Config.wrongKind op [a]

/-- Applies an operator of one boolean; on another kind its result is a free value (log 16). -/
def applyBool (op : Operator) (f : Bool → Bool) : Val → Val
  | .bool x => .bool (f x)
  | a => Config.wrongKind op [a]

/-- Applies an operator of two words; on other kinds its result is a free value (log 16). -/
def applyWords (op : Operator) (f : Word → Word → Word) : Val → Val → Val
  | .word x, .word y => .word (f x y)
  | a, b => Config.wrongKind op [a, b]

/-- Applies an operator of two booleans; on other kinds its result is a free value (log 16). -/
def applyBools (op : Operator) (f : Bool → Bool → Bool) : Val → Val → Val
  | .bool x, .bool y => .bool (f x y)
  | a, b => Config.wrongKind op [a, b]

/-- Whether two values are of one kind. -/
def Val.sameKind : Val → Val → Bool
  | .word _, .word _ => true
  | .bool _, .bool _ => true
  | .opt _, .opt _ => true
  | _, _ => false

/-- Compares two values of one kind; on values of two kinds the result is a free value (log 16). -/
def applyCompare (op : Operator) (f : Val → Val → Bool) (a b : Val) : Val :=
  if a.sameKind b then .bool (f a b) else Config.wrongKind op [a, b]

/-- Applies a function to one value. -/
def onVal (f : Val → Except EvalError Val) (a : Except EvalError Val) : Except EvalError Val :=
  match a with
  | .error e => .error e
  | .ok va => f va

/-- Applies a function to two values; both are evaluated, the left one first (log 15). -/
def onVals (f : Val → Val → Val) (a b : Except EvalError Val) : Except EvalError Val :=
  onVal (fun va => onVal (fun vb => .ok (f va vb)) b) a

/-- The value of an expression (30_encoding.md R141, R142). -/
def evalExpr (vars : List (Var × Val)) : Expr → Except EvalError Val
  | .lit w => .ok (.word w)
  | .litBool b => .ok (.bool b)
  | .var x =>
    match lookupVar x vars with
    | some v => .ok v
    | .none => .error .unwritten
  | .eq a b => onVals (applyCompare .eq fun x y => x == y) (evalExpr vars a) (evalExpr vars b)
  | .ne a b => onVals (applyCompare .ne fun x y => !(x == y)) (evalExpr vars a) (evalExpr vars b)
  | .not a => onVal (fun v => .ok (applyBool .not (fun x => !x) v)) (evalExpr vars a)
  | .and a b => onVals (applyBools .and fun x y => x && y) (evalExpr vars a) (evalExpr vars b)
  | .or a b => onVals (applyBools .or fun x y => x || y) (evalExpr vars a) (evalExpr vars b)
  | .addMod256 a b => onVals (applyWords .addMod256 fun x y => (x + y) &&& 0xFF) (evalExpr vars a) (evalExpr vars b)
  | .some a => onVal (fun v => .ok (applyWord .some (fun w => .opt (some w)) v)) (evalExpr vars a)
  | .none => .ok (.opt .none)
  | .slice a hi lo =>
    onVal (fun v =>
      if lo ≤ hi ∧ hi < 32 then .ok (applyWord (.slice hi lo) (fun w => .word ((w >>> lo) &&& lowMask (hi - lo + 1))) v)
      else .error .illFormed) (evalExpr vars a)
  | .bitAnd a b => onVals (applyWords .bitAnd fun x y => x &&& y) (evalExpr vars a) (evalExpr vars b)
  | .bitOr a b => onVals (applyWords .bitOr fun x y => x ||| y) (evalExpr vars a) (evalExpr vars b)

/-- What an expression gives where an operand of one kind is needed. -/
def evalTo {α : Type} (f : Val → α) (vars : List (Var × Val)) (e : Expr) : Except EvalError α :=
  match evalExpr vars e with
  | .ok v => .ok (f v)
  | .error err => .error err

/-- The word of a numeric operand; for a value of another kind it is free (log 16). -/
def evalWord (vars : List (Var × Val)) (e : Expr) : Except EvalError Word := evalTo Val.toWord vars e

/-- The truth value of a boolean operand or condition; for a value of another kind it is free (log 16). -/
def evalBool (vars : List (Var × Val)) (e : Expr) : Except EvalError Bool := evalTo Val.toBool vars e

/-- The values of a field list's operands, in order. -/
def evalFields (vars : List (Var × Val)) : List (Field × Expr) → Except EvalError (List (Field × Word))
  | [] => .ok []
  | (f, e) :: rest =>
    match evalTo Val.toField vars e with
    | .error err => .error err
    | .ok w =>
      match evalFields vars rest with
      | .error err => .error err
      | .ok ws => .ok ((f, w) :: ws)

end Machine
end Sys2Proof
end

