-- ==== Sys2Proof/Machine/Flags.lean ====
section
/-! DEFINITION. The status flags and the values of the status registers (10_state.md R39 to R45, R49). `d` is the draw that
supplies a register's untracked bits. -/

namespace Sys2Proof
namespace Machine

/-- `IC_ENABLE(u).ENABLE` (10_state.md R42). -/
def UnitState.enabled (un : UnitState) : Bool := getFlag .enable un.icEnable

/-- TFNF, "transmit FIFO is not full" (10_state.md R43). -/
def UnitState.tfnf (un : UnitState) : Bool := decide (un.txf.length < Config.fifoDepth)

/-- TFE (10_state.md R43). -/
def UnitState.tfe (un : UnitState) : Bool := decide (un.txf.length = 0)

/-- RFNE, "receive FIFO is non-empty" (10_state.md R43). -/
def UnitState.rfne (un : UnitState) : Bool := decide (0 < un.rxf.length)

/-- RFF (10_state.md R43). -/
def UnitState.rff (un : UnitState) : Bool := decide (un.rxf.length = Config.fifoDepth)

/-- IC_STATUS (40_register_access.md R161): ACTIVITY, MST_ACTIVITY and SLV_ACTIVITY are drawn. -/
def statusWord (un : UnitState) (d : Word) : Word :=
  (d &&& fieldsMask [.activity, .mstActivity, .slvActivity]) ||| flag .tfnf un.tfnf ||| flag .tfe un.tfe |||
    flag .rfne un.rfne ||| flag .rff un.rff

/-- IC_RAW_INTR_STAT (40_register_access.md R162): every defined bit but RD_REQ and TX_ABRT is drawn (10_state.md R39). -/
def rawIntrStatWord (un : UnitState) (d : Word) : Word :=
  (d &&& fieldsMask [.rxUnder, .rxOver, .rxFull, .txOver, .txEmpty, .rxDone, .rawActivity, .stopDet, .startDet, .genCall,
    .restartDet]) ||| flag .rdReq un.rdReq ||| flag .txAbrt un.txAbrt

/-- IC_TX_ABRT_SOURCE (40_register_access.md R163): TX_FLUSH_CNT is drawn. -/
def txAbrtSourceWord (un : UnitState) (d : Word) : Word :=
  (un.abrtSrc &&& ~~~fieldMask .txFlushCnt) ||| (d &&& fieldMask .txFlushCnt)

/-- IC_ENABLE_STATUS (40_register_access.md R164): SLV_DISABLED_WHILE_BUSY and SLV_RX_DATA_LOST are drawn. -/
def enableStatusWord (un : UnitState) (d : Word) : Word :=
  flag .icEn un.enabled ||| (d &&& fieldsMask [.slvDisabledWhileBusy, .slvRxDataLost])

/-- The value of a read-to-clear register whose one bit is `f` (10_state.md R40, R41): that bit is drawn. -/
def clearWord (f : Field) (d : Word) : Word := d &&& fieldMask f

/-- The value of a read of IC_DATA_CMD that pops `b` (40_register_access.md R157): FIRST_DATA_BYTE is drawn. -/
def dataCmdWord (b : Byte) (d : Word) : Word :=
  (b.zeroExtend 32 <<< (fieldBits .dat).2) ||| (d &&& fieldMask .firstDataByte)

end Machine
end Sys2Proof
end

