-- ==== Sys2Proof/Machine/Ops.lean ====
section
/-! DEFINITION. The named operations over the state: the one accessor of each register, draws, the caller's variables, the
program counter, FIFOs, fault entry, and the glue between a register access and the outcome of a CPU step. -/

namespace Sys2Proof
namespace Machine

/-- The outcome of a step of this machine. -/
abbrev Outcome := Host.Outcome State Fault Refusal

/-! ## Registers -/

/-- The state of unit `u`. -/
def State.unit (s : State) (u : UnitId) : UnitState := s.units[u.val]

/-- Replaces the state of unit `u`. -/
def State.setUnit (s : State) (u : UnitId) (un : UnitState) : State := { s with units := s.units.set u.val un u.isLt }

/-- `PAD(n)` as stored (10_state.md R50). -/
def State.pad (s : State) (n : Pin) : Word := s.pads[n.val]

/-- `PAD(n) <- v`. -/
def State.setPad (s : State) (n : Pin) (v : Word) : State := { s with pads := s.pads.set n.val v n.isLt }

/-- `CTRL(n)` as stored (10_state.md R51). -/
def State.ctrl (s : State) (n : Pin) : Word := s.ctrls[n.val]

/-- `CTRL(n) <- v`. -/
def State.setCtrl (s : State) (n : Pin) (v : Word) : State := { s with ctrls := s.ctrls.set n.val v n.isLt }

/-- `PHASE <- p` (10_state.md R48). -/
def State.setPhase (s : State) (p : Phase) : State := { s with phase := p }

/-- `SIO.OUT <- v` (10_state.md R52). -/
def State.setOut (s : State) (v : Word) : State := { s with sioOut := v }

/-- `SIO.OE <- v` (10_state.md R52). -/
def State.setOe (s : State) (v : Word) : State := { s with sioOe := v }

/-! ## The driver objects and the local value of `modify` (10_state.md R33, R34; 40_register_access.md R152) -/

/-- Keeps the value that step 1 of a `modify` has read. -/
def State.setLatch (s : State) (v : Word) : State := { s with latch := v }

/-- `requested <- true` (43_i2c_controller.md R214). -/
def State.setRequested (s : State) : State := { s with requested := true }

/-- `memoryValue <- some(b)` (44_i2c_target.md R242). -/
def State.setMemoryValue (s : State) (b : Byte) : State := { s with memoryValue := some b }

/-- `self.address <- a` (44_i2c_target.md R241). -/
def State.setTargetAddress (s : State) (a : BusAddr) : State := { s with targetAddress := a }

/-! ## Draws (00_scope.md R14) -/

/-- The word of the draw that is `k` draws ahead (log 6). -/
def State.draw (s : State) (k : Nat) : Word := Config.freeWord (s.drawCount + k)

/-- The state after `n` draws have been used. -/
def State.drew (s : State) (n : Nat) : State := { s with drawCount := s.drawCount + n }

/-! ## The caller's variables and the program counter (10_state.md R31, R32; 30_encoding.md R142) -/

/-- `x := v`, or nothing if no variable is given. -/
def State.assign (s : State) (x : Option Var) (v : Val) : State :=
  match x with
  | some x => { s with vars := assignVar x v s.vars }
  | .none => s

/-- A completed step of an operation's pseudocode: the step index goes up by one. -/
def State.advance (s : State) : State := { s with pc := ⟨s.pc.stmt, s.pc.step + 1⟩ }

/-- A completed statement: on to the next one, step index 0. -/
def State.finish (s : State) : State := { s with pc := ⟨s.pc.stmt + 1, 0⟩ }

/-- `return v`: the result goes to the statement's variable and the statement is complete. -/
def State.ret (s : State) (x : Option Var) (v : Val) : State := (s.assign x v).finish

/-- The variables after `x := <operation>` where the operation has no result: the spec does not state what `x` then holds, so
it is a free value, or `x` as it was (log 35). -/
def noResultVars (x : Var) (k : Nat) (vars : List (Var × Val)) : List (Var × Val) :=
  match Config.noResult k with
  | some v => assignVar x v vars
  | .none => vars

/-- The return of an operation whose result is none (30_encoding.md R140) to its variable, if one is given; the free value of
`noResultVars` uses one draw. -/
def State.noResult (s : State) (x : Option Var) : State :=
  match x with
  | some x => { s with vars := noResultVars x s.drawCount s.vars, drawCount := s.drawCount + 1 }
  | .none => s

/-- A completed operation whose result is none. -/
def State.retNone (s : State) (x : Option Var) : State := (s.noResult x).finish

/-- A jump to the statement of index `i`. -/
def State.jump (s : State) (i : Nat) : State := { s with pc := ⟨i, 0⟩ }

/-! ## FIFOs (10_state.md R46) -/

/-- `push(TXF, c)`. -/
def UnitState.pushTx (un : UnitState) (c : Cmd) : UnitState := { un with txf := un.txf ++ [c] }

/-- `pop(TXF)`. -/
def UnitState.popTx (un : UnitState) : UnitState := { un with txf := un.txf.tail }

/-- `push(RXF, b)`. -/
def UnitState.pushRx (un : UnitState) (b : Byte) : UnitState := { un with rxf := un.rxf ++ [b] }

/-- `pop(RXF)`. -/
def UnitState.popRx (un : UnitState) : UnitState := { un with rxf := un.rxf.tail }

/-! ## Fault entry (60_exceptions.md R313) -/

/-- `FAULT <- reason` (10_state.md R53). -/
def State.setFault (s : State) (f : Fault) : State := { s with fault := some f }

/-- `raise Fault(reason)`: if `FAULT` is none it takes the reason; every other component keeps its value and the program
counter is not changed (60_exceptions.md R313). There is no return from it (R315). -/
def raise (f : Fault) (s : State) : Outcome :=
  match s.fault with
  | .none => .next (s.setFault f)
  | some _ => .next s

/-- The outcome of a step whose checks and effects gave `e` from `s`: the effects, or the fault entry from `s` itself, since
no partial effect is made (60_exceptions.md R313). -/
def settle (s : State) (e : Except Fault State) : Outcome :=
  match e with
  | .ok t => .next t
  | .error f => raise f s

/-- The outcome of an operand evaluation that has no value. -/
def evalFailed (s : State) (e : EvalError) : Outcome :=
  match e with
  | .unwritten => raise .unwrittenVar s
  | .illFormed => .refused .illFormed

/-- Goes on with an operand's value, before the access of this step (log 19; against the checks, log 36). -/
def withOperand {α : Type} (s : State) (v : Except EvalError α) (k : α → Outcome) : Outcome :=
  match v with
  | .ok a => k a
  | .error e => evalFailed s e

end Machine
end Sys2Proof
end

