-- ==== Sys2Proof/Machine/PinRole.lean ====
section
/-! DEFINITION. The roles of the pins (41_pin_configuration.md R170 to R172) and the bus predicates that depend on them
(45_i2c_bus_engine.md R271). -/

namespace Sys2Proof
namespace Machine

/-- The roles of a pin (41_pin_configuration.md R170). -/
inductive PinRole where
  | isolated
  | i2c (u : UnitId) (sig : Signal)
  | digitalOutput
  | digitalInput
  | unconfigured
deriving DecidableEq, Repr

/-- `role(n)` (41_pin_configuration.md R170): the cases are tried in order. -/
def State.pinRole (s : State) (n : Pin) : PinRole :=
  if getField .iso (s.pad n) = 1 then .isolated
  else if getField .funcsel (s.ctrl n) = 3 ∧ getField .ie (s.pad n) = 1 ∧ getField .od (s.pad n) = 0 then
    .i2c (i2cUnit n.val) (i2cSignal n.val)
  else if getField .funcsel (s.ctrl n) = 5 ∧ getField .od (s.pad n) = 0 ∧ getField (.pinBit n) s.sioOe = 1 then
    .digitalOutput
  else if getField .funcsel (s.ctrl n) = 5 ∧ getField .ie (s.pad n) = 1 ∧ getField (.pinBit n) s.sioOe = 0 then
    .digitalInput
  else .unconfigured

/-- `role(line_PIN(u)) = I2C(u, line)`. -/
def State.carries (s : State) (sig : Signal) (u : UnitId) : Bool :=
  s.pinRole (s.board.linePin sig u) == .i2c u sig

/-- `pinsReady(u)` (45_i2c_bus_engine.md R271). -/
def State.pinsReady (s : State) (u : UnitId) : Bool := s.carries .sda u && s.carries .scl u

/-- `pulled(line)` (45_i2c_bus_engine.md R271). -/
def State.pulled (s : State) (sig : Signal) : Bool :=
  s.board.externalPullups ||
    [0, 1].any fun u => s.carries sig u && getField .pue (s.pad (s.board.linePin sig u)) == 1

/-- `busUp(c)` (45_i2c_bus_engine.md R271). -/
def State.busUp (s : State) (c : UnitId) : Bool :=
  s.board.wired && s.pinsReady c && s.pulled .sda && s.pulled .scl

end Machine
end Sys2Proof
end

