-- ==== Sys2Proof/Machine/Registers.lean ====
section
/-! DEFINITION. The effect of each admitted read and write of a register (40_register_access.md R153 to R165), as two
operations over all registers: `readReg` and `writeReg`. Every check comes before every effect. -/

namespace Sys2Proof
namespace Machine

/-! ## Reads -/

/-- Pop a received byte (40_register_access.md R157). -/
def popData (u : UnitId) (s : State) : Except Fault (Word × State) :=
  if (s.unit u).enabled = false then .error (.unitDisabled u)
  else
    match (s.unit u).rxf with
    | [] => .error (.rxUnderflow u)
    | b :: _ => .ok (dataCmdWord b (s.draw 0), (s.setUnit u (s.unit u).popRx).drew 1)

/-- Read of IC_CLR_RD_REQ (40_register_access.md R158). -/
def clearRdReq (u : UnitId) (s : State) : Word × State :=
  (clearWord .clrRdReq (s.draw 0), (s.setUnit u { s.unit u with rdReq := false }).drew 1)

/-- Read of IC_CLR_TX_ABRT (40_register_access.md R159). -/
def clearTxAbrt (u : UnitId) (s : State) : Word × State :=
  (clearWord .clrTxAbrt (s.draw 0), (s.setUnit u { s.unit u with txAbrt := false, abrtSrc := 0 }).drew 1)

/-- `MemRead` of a register: the value read and the state after its side effect. A storage register reads as stored, with
read-only and reserved bits 0 (40_register_access.md R153). A register that no row admits for R is `F_UNADMITTED`
(20_memory.md R86). -/
def readReg (r : Reg) (s : State) : Except Fault (Word × State) :=
  match r with
  | .icCon u => .ok ((s.unit u).icCon &&& r.readMask, s)
  | .icTar u => .ok ((s.unit u).icTar &&& r.readMask, s)
  | .icSar u => .ok ((s.unit u).icSar &&& r.readMask, s)
  | .icDataCmd u => popData u s
  | .icRawIntrStat u => .ok (rawIntrStatWord (s.unit u) (s.draw 0), s.drew 1)
  | .icClrRdReq u => .ok (clearRdReq u s)
  | .icClrTxAbrt u => .ok (clearTxAbrt u s)
  | .icEnable u => .ok ((s.unit u).icEnable &&& r.readMask, s)
  | .icStatus u => .ok (statusWord (s.unit u) (s.draw 0), s.drew 1)
  | .icTxAbrtSource u => .ok (txAbrtSourceWord (s.unit u) (s.draw 0), s.drew 1)
  | .icEnableStatus u => .ok (enableStatusWord (s.unit u) (s.draw 0), s.drew 1)
  | .pad n => .ok (s.pad n &&& r.readMask, s)
  | .ctrl n => .ok (s.ctrl n &&& r.readMask, s)
  | .gpioOut => .ok (s.sioOut &&& r.readMask, s)
  | .gpioOe => .ok (s.sioOe &&& r.readMask, s)
  | .gpioOutSet | .gpioOutClr | .gpioOeSet | .gpioOeClr => .error (.unadmitted r.addr)

/-! ## Writes -/

/-- Write of a configuration register (40_register_access.md R154): only while the unit is disabled. -/
def writeConfig (u : UnitId) (r : Reg) (un' : UnitState) (s : State) : Except Fault State :=
  if (s.unit u).enabled = true then .error (.cfgWhileEnabled u r) else .ok (s.setUnit u un')

/-- Whether a role may be given a command form (30_encoding.md R115; 40_register_access.md R156). -/
def formAdmitted (role : Role) (f : Option CommandForm) : Bool :=
  match role, f with
  | .controller, some .cw => true
  | .controller, some .cr => true
  | .target, some .td => true
  | _, _ => false

/-- `PHASE = ReadPending(u, _)`. -/
def Phase.reading (p : Phase) (u : UnitId) : Bool :=
  match p with
  | .idle => false
  | .readPending c _ => c == u

/-- `PHASE = ReadPending(c, t) and u in {c, t}`. -/
def Phase.names (p : Phase) (u : UnitId) : Bool :=
  match p with
  | .idle => false
  | .readPending c t => u == c || u == t

/-- Push a command (40_register_access.md R156), its checks in the order R314 gives them. -/
def pushCommand (u : UnitId) (v : Word) (s : State) : Except Fault State :=
  if (s.unit u).enabled = false then .error (.unitDisabled u)
  else if formAdmitted (s.unit u).role (commandForm v) = false then .error (.unadmittedCmd u v)
  else if (s.unit u).role = .controller ∧ (s.unit u).txAbrt = true then .error (.writeWhileAborted u)
  else if (s.unit u).role = .controller ∧ (0 < (s.unit u).txf.length ∨ s.phase.reading u = true) then
    .error (.overlappedTransaction u)
  else if (s.unit u).txf.length = Config.fifoDepth then .error (.txOverflow u)
  else .ok (s.setUnit u ((s.unit u).pushTx (cmdOf v)))

/-- `reserved7(x)` (40_register_access.md R160). -/
def reserved7 (x : Word) : Bool := decide (x ≤ 0x07) || decide (0x78 ≤ x)

/-- The role that IC_CON asks for (10_state.md R47; 40_register_access.md R160), none if it is neither combination. -/
def requestedRole (con : Word) : Role :=
  if getField .masterMode con = 1 ∧ getField .icSlaveDisable con = 1 then .controller
  else if getField .masterMode con = 0 ∧ getField .icSlaveDisable con = 0 then .target
  else .none

/-- IC_CON bits 3, 4, 7, 8, 9 are 0 (40_register_access.md R160; the column "values admitted at enable" of 10_state.md
R35). -/
def conBitsLegal (con : Word) : Bool :=
  !(getFlag .ic10BitAddrSlave con || getFlag .ic10BitAddrMaster con || getFlag .stopDetIfAddressed con ||
    getFlag .txEmptyCtrl con || getFlag .rxFifoFullHldCtrl con)

/-- `a[9:7] = 0` and `a[6:0]` is not reserved, of an address field's value (40_register_access.md R160). -/
def addressLegal (a : Word) : Bool := (a >>> 7) &&& 0x7 == 0 && !reserved7 (a &&& 0x7F)

/-- The configuration of a unit is one that the enabling write admits for the role (40_register_access.md R160). -/
def UnitState.configLegal (un : UnitState) : Bool :=
  match requestedRole un.icCon with
  | .controller => conBitsLegal un.icCon && addressLegal (getField .tarAddress un.icTar) && getField .special un.icTar == 0
  | .target => conBitsLegal un.icCon && addressLegal (getField .sarAddress un.icSar)
  | .none => false

/-- The enabling write of IC_ENABLE (40_register_access.md R160). -/
def enableUnit (u : UnitId) (v : Word) (s : State) : Except Fault State :=
  if (s.unit u).configLegal = false then .error (.illegalConfig u)
  else if s.pinsReady u = false then .error (.pinNotReady u)
  else .ok (s.setUnit u { s.unit u with role := requestedRole (s.unit u).icCon, icEnable := v })

/-- The disabling write of IC_ENABLE (40_register_access.md R160): TX_ABRT, RD_REQ and ABRT_SRC are draws. -/
def disableUnit (u : UnitId) (v : Word) (s : State) : Except Fault State :=
  if s.phase.names u = true then .error (.disableActive u)
  else if 0 < (s.unit u).txf.length then .error (.disableActive u)
  else
    .ok ((s.setUnit u { s.unit u with
      txf := [], rxf := [],
      txAbrt := (s.draw 0).getLsbD 0, rdReq := (s.draw 1).getLsbD 0, abrtSrc := s.draw 2,
      role := .none, icEnable := v }).drew 3)

/-- Write of IC_ENABLE (40_register_access.md R160). -/
def writeEnable (u : UnitId) (v : Word) (s : State) : Except Fault State :=
  match (s.unit u).enabled, getFlag .enable v with
  | false, true => enableUnit u v s
  | true, false => disableUnit u v s
  | _, _ => .ok s

/-- The effect of a write whose value meets its pattern, by register (40_register_access.md R154, R155, R156, R160,
R165). -/
def storeReg (r : Reg) (v : Word) (s : State) : Except Fault State :=
  match r with
  | .icCon u => writeConfig u r { s.unit u with icCon := v } s
  | .icTar u => writeConfig u r { s.unit u with icTar := v } s
  | .icSar u => writeConfig u r { s.unit u with icSar := v } s
  | .icDataCmd u => pushCommand u v s
  | .icEnable u => writeEnable u v s
  | .pad n => .ok (s.setPad n v)
  | .ctrl n => .ok (s.setCtrl n v)
  | .gpioOut => .ok (s.setOut v)
  | .gpioOutSet => .ok (s.setOut (s.sioOut ||| v))
  | .gpioOutClr => .ok (s.setOut (s.sioOut &&& ~~~v))
  | .gpioOe => .ok (s.setOe v)
  | .gpioOeSet => .ok (s.setOe (s.sioOe ||| v))
  | .gpioOeClr => .ok (s.setOe (s.sioOe &&& ~~~v))
  | .icRawIntrStat _ | .icClrRdReq _ | .icClrTxAbrt _ | .icStatus _ | .icTxAbrtSource _ | .icEnableStatus _ =>
    .error (.unadmitted r.addr)

/-- `MemWrite` of a register: a write that no row admits, or whose value violates its pattern, is `F_UNADMITTED`
(20_memory.md R86; 30_encoding.md R113); otherwise the register's effect. -/
def writeReg (r : Reg) (v : Word) (s : State) : Except Fault State :=
  if r.writable = true ∧ r.admitsValue v = true then storeReg r v s else .error (.unadmitted r.addr)

/-! ## CPU steps made of one access -/

/-- A CPU step that reads a register and goes on with the value and the state after the read. -/
def onRead (r : Reg) (s : State) (k : Word → State → Outcome) : Outcome :=
  match readReg r s with
  | .ok (v, t) => k v t
  | .error f => raise f s

/-- A CPU step that writes a register and then updates the CPU side by `k`. -/
def onWrite (r : Reg) (v : Word) (s : State) (k : State → State) : Outcome :=
  match writeReg r v s with
  | .ok t => .next (k t)
  | .error f => raise f s

/-- A statement that is one read; the value goes to the caller variable `x` (40_register_access.md R150). -/
def readStmt (x : Option Var) (r : Reg) (s : State) : Outcome := onRead r s fun v t => .next (t.ret x (.word v))

/-- A statement that is one write (40_register_access.md R151). -/
def writeStmt (r : Reg) (v : Word) (s : State) : Outcome := onWrite r v s State.finish

/-- Step 1 of a `modify`: the value read is kept for step 2 (40_register_access.md R152). -/
def modifyRead (r : Reg) (s : State) : Outcome := onRead r s fun v t => .next (t.setLatch v).advance

/-- Step 2 of a `modify`: the named fields replaced, every other bit as read (40_register_access.md R152). -/
def modifyWrite (r : Reg) (fs : List (Field × Word)) (s : State) (k : State → State) : Outcome :=
  onWrite r (insertFields fs s.latch) s k

/-- One poll of a busy-wait (42_busy_wait.md R200, R201): if the condition is false nothing changes but the number of draws
used. -/
def poll (r : Reg) (mask value : Word) (s : State) (k : State → State) : Outcome :=
  onRead r s fun v t => if v &&& mask = value then .next (k t) else .next t

end Machine
end Sys2Proof
end

