-- ==== Sys2Proof/Machine/Bus.lean ====
section
/-! DEFINITION. The bus agent (45_i2c_bus_engine.md R270 to R282): when each joint step is enabled, and what it does. -/

namespace Sys2Proof
namespace Machine

/-- `acks(c, t)` (45_i2c_bus_engine.md R272). -/
def State.acks (s : State) (c t : UnitId) : Bool :=
  (s.unit t).enabled && (s.unit t).role == .target && s.pinsReady t &&
    getField .sarAddress (s.unit t).icSar &&& 0x7F == getField .tarAddress (s.unit c).icTar &&& 0x7F

/-- `ready(c)` (45_i2c_bus_engine.md R273). -/
def State.ready (s : State) (c : UnitId) : Bool :=
  (s.unit c).enabled && (s.unit c).role == .controller && !(s.unit c).txAbrt &&
    decide (0 < (s.unit c).txf.length) && s.phase == .idle

/-- `head(TXF(c)).CMD`, if there is a head. -/
def State.headCmd (s : State) (c : UnitId) : Option Bool := (s.unit c).txf.head?.map Cmd.cmd

/-- When a joint step is enabled (45_i2c_bus_engine.md R274, R276, R277, R279). -/
def State.busEnabled (s : State) : BusStep → Bool
  | .write c => s.ready c && s.headCmd c == some false && s.busUp c
  | .readAddr c => s.ready c && s.headCmd c == some true && s.busUp c
  | .readData c =>
    s.phase == .readPending c (otherUnit c) && decide (0 < (s.unit (otherUnit c)).txf.length) &&
      s.busUp c && s.pinsReady (otherUnit c)
  | .lost c =>
    (s.ready c && !s.busUp c) ||
      (s.phase == .readPending c (otherUnit c) && !(s.busUp c && s.pinsReady (otherUnit c)))

/-- `abortNoAck(c)` (45_i2c_bus_engine.md R275). -/
def abortNoAck (c : UnitId) (s : State) : State :=
  s.setUnit c { s.unit c with txAbrt := true, abrtSrc := (s.unit c).abrtSrc ||| fieldMask .abrt7bAddrNoack, txf := [] }

/-- BUS-WRITE(c) when enabled (45_i2c_bus_engine.md R274). -/
def busWrite (c : UnitId) (s : State) : Except Fault State :=
  if s.acks c (otherUnit c) = true then
    if (s.unit (otherUnit c)).rxf.length = Config.fifoDepth then .error (.targetRxOverflow (otherUnit c))
    else
      match (s.unit c).txf with
      | [] => .ok s
      | e :: _ =>
        .ok ((s.setUnit c (s.unit c).popTx).setUnit (otherUnit c) ((s.unit (otherUnit c)).pushRx e.dat))
  else .ok (abortNoAck c s)

/-- BUS-READ-ADDR(c) when enabled (45_i2c_bus_engine.md R276). -/
def busReadAddr (c : UnitId) (s : State) : Except Fault State :=
  if s.acks c (otherUnit c) = true then
    if 0 < (s.unit (otherUnit c)).txf.length then .error (.targetTxStale (otherUnit c))
    else
      .ok (((s.setUnit c (s.unit c).popTx).setUnit (otherUnit c) { s.unit (otherUnit c) with rdReq := true }).setPhase
        (.readPending c (otherUnit c)))
  else .ok (abortNoAck c s)

/-- BUS-READ-DATA(c, t) when enabled (45_i2c_bus_engine.md R277; the RXF check comes first, 90_conflicts.md C7). -/
def busReadData (c : UnitId) (s : State) : Except Fault State :=
  if (s.unit c).rxf.length = Config.fifoDepth then .error (.ctrlRxOverflow c)
  else
    match (s.unit (otherUnit c)).txf with
    | [] => .ok s
    | e :: _ =>
      .ok (((s.setUnit (otherUnit c) (s.unit (otherUnit c)).popTx).setUnit c ((s.unit c).pushRx e.dat)).setPhase .idle)

/-- The abort reason that a lost bus draws: bits 16:0 not all zero, bits 31:17 zero (45_i2c_bus_engine.md R279; log 7). -/
def State.lostReason (s : State) : Word := BitVec.ofNat 32 ((Config.freeAbortReason s.drawCount).val + 1)

/-- BUS-LOST(c) when enabled (45_i2c_bus_engine.md R279). -/
def busLost (c : UnitId) (s : State) : State :=
  ((s.setUnit c { s.unit c with txAbrt := true, abrtSrc := s.lostReason, txf := [] }).setPhase .idle).drew 1

/-- The effect of an enabled joint step. -/
def busEffect (b : BusStep) (s : State) : Except Fault State :=
  match b with
  | .write c => busWrite c s
  | .readAddr c => busReadAddr c s
  | .readData c => busReadData c s
  | .lost c => .ok (busLost c s)

/-- A turn of the bus agent: the joint step if it is enabled, else nothing (log 9). -/
def busTurn (b : BusStep) (s : State) : Outcome :=
  if s.busEnabled b = true then settle s (busEffect b s) else .next s

end Machine
end Sys2Proof
end

