-- ==== Sys2Proof/Machine/Caller.lean ====
section
/-! DEFINITION. The caller program at the CPU's program counter (30_encoding.md R141, R142): the instruction that a statement
holds, directly or as an access that the decoder reads, and the statements that are no instruction. -/

namespace Sys2Proof
namespace Machine

/-- The statement at the program counter, if there is one. -/
def State.currentStmt (s : State) : Option Stmt := s.program[s.pc.stmt]?.map Line.stmt

/-- The instruction that the CPU runs at its turn, if the current statement holds one: an access is decoded
(30_encoding.md R113). -/
def fetchInstr (s : State) : Option Instr :=
  match s.currentStmt with
  | some (.instr i) => some i
  | some (.access a) =>
    match decode a with
    | .ok i => some i
    | .error _ => .none
  | _ => .none

/-- An access that no row decodes: the decoder's fault, or for a value of IC_DATA_CMD that is no command form the checks
of 40_register_access.md R156 in their order (log 26; a value with a reserved bit set is the decoder's, log 33). -/
def rejectAccess (e : DecodeError) (s : State) : Outcome :=
  match e with
  | .access addr => raise (.access addr) s
  | .unadmitted addr => raise (.unadmitted addr) s
  | .noForm u v => writeStmt (.icDataCmd u) v s

/-- `index(L)` (30_encoding.md R142). DESIGN CHOICE (log 37): where two statements carry the label, the first one. -/
def labelIndex (l : Label) (p : List Line) : Option Nat := p.findIdx? fun ln => ln.label == some l

/-- A jump to a label; a label that the program lacks has no index (log 17). -/
def jumpTo (l : Label) (s : State) : Outcome :=
  match labelIndex l s.program with
  | some i => .next (s.jump i)
  | .none => .refused .illFormed

/-- `x := e` (30_encoding.md R142). -/
def runAssign (x : Var) (e : Expr) (s : State) : Outcome :=
  match evalExpr s.vars e with
  | .ok v => .next (s.ret (some x) v)
  | .error err => evalFailed s err

/-- `if e goto L` (30_encoding.md R142). -/
def runIfGoto (e : Expr) (l : Label) (s : State) : Outcome :=
  withOperand s (evalBool s.vars e) fun b => if b = true then jumpTo l s else .next s.finish

/-- A CPU step at a statement that holds no instruction. `halt`, and a statement index beyond the last statement, change
nothing (30_encoding.md R142; log 25). -/
def runOther (s : State) : Outcome :=
  match s.currentStmt with
  | some (.access a) =>
    match decode a with
    | .ok _ => .next s
    | .error e => rejectAccess e s
  | some (.assign x e) => runAssign x e s
  | some (.ifGoto e l) => runIfGoto e l s
  | some (.goto l) => jumpTo l s
  | some (.instr _) => .next s
  | some .halt => .next s
  | .none => .next s

/-- The CPU is at `halt` or past the last statement (30_encoding.md R142). -/
def State.halted (s : State) : Bool :=
  match s.currentStmt with
  | .none => true
  | some .halt => true
  | _ => false

/-- The turn passes: who acts next is a free choice (20_memory.md R90; log 8). -/
def passTurn (s : State) : State :=
  { s with turn := Config.nextTurn s.turnCount, turnCount := s.turnCount + 1 }

/-- A step's outcome with the turn passed. -/
def endTurn (o : Outcome) : Outcome :=
  match o with
  | .next s => .next (passTurn s)
  | .fault f => .fault f
  | .refused r => .refused r

/-- A program of one statement at the CPU's next turn, for a machine that has not stopped (log 21). -/
def loadAccess (a : Access) (s : State) : State :=
  { s with program := [⟨.none, .access a⟩], pc := ⟨0, 0⟩, fault := .none, turn := .cpu }

end Machine
end Sys2Proof
end

