-- ==== Sys2Proof/Machine/AccessLayer.lean ====
section
/-! DEFINITION. The register access layer: `read`, `write`, `modify` (40_register_access.md R150 to R152), and the busy-wait
`waitForCondition` (42_busy_wait.md R200 to R202). -/

namespace Sys2Proof
namespace Machine

/-- `read <REG>` (40_register_access.md R150). -/
def execRead (x : Option Var) (r : Reg) (s : State) : Outcome := readStmt x r s

/-- `write <REG>, v` and `write <REG>, {F1 = e1, …}`: in the second form every unnamed field is 0
(40_register_access.md R151). DESIGN CHOICE (log 36): the rules do not order the register's check and the operands; a value is
evaluated before the register is checked, a field list after it. A boolean or an optional value as `v` is a free word (log 16). -/
def execWrite (r : Reg) (arg : WriteArg) (s : State) (x : Option Var := .none) : Outcome :=
  match arg with
  | .value e => withOperand s (evalWord s.vars e) fun v => onWrite r v s fun t => t.retNone x
  | .fields fs =>
    if r.writable = false then raise (.unadmitted r.addr) s
    else if fieldsWf r fs = false then .refused .illFormed
    else withOperand s (evalFields s.vars fs) fun ws => onWrite r (assemble ws) s fun t => t.retNone x

/-- The registers that `modify` takes: admitted for R and W, with a read that has no side effect
(40_register_access.md R152). -/
def Reg.modifiable : Reg → Bool
  | .icCon _ | .icTar _ | .icSar _ | .icEnable _ | .pad _ | .ctrl _ | .gpioOut | .gpioOe => true
  | _ => false

/-- `modify <REG>, {F1 = e1, …}`: two CPU steps (40_register_access.md R152). DESIGN CHOICE (log 36): the register is checked
before the operands are evaluated, so F_UNADMITTED comes before F_UNWRITTEN_VAR. -/
def execModify (r : Reg) (fs : List (Field × Expr)) (s : State) (x : Option Var := .none) : Outcome :=
  if Reg.modifiable r = false then raise (.unadmitted r.addr) s
  else if fieldsWf r fs = false then .refused .illFormed
  else
    withOperand s (evalFields s.vars fs) fun ws =>
      match s.pc.step with
      | 0 => modifyRead r s
      | _ => modifyWrite r ws s fun t => t.retNone x

/-- The registers that a busy-wait may poll: admitted for R, with a read that has no side effect
(42_busy_wait.md R200). -/
def Reg.pollable : Reg → Bool
  | .icStatus _ | .icRawIntrStat _ | .icEnableStatus _ | .icTxAbrtSource _ => true
  | r => Reg.modifiable r

/-- `waitForCondition(REG, mask, value)`: one CPU step per poll, without bound (42_busy_wait.md R200 to R202). DESIGN CHOICE
(log 36): REG is checked first, then `mask` and then `value` are evaluated, so F_UNADMITTED comes before F_UNWRITTEN_VAR. A boolean
as `mask` or `value` is a free word (log 16). -/
def execWaitForCondition (r : Reg) (mask value : Expr) (s : State) (x : Option Var := .none) : Outcome :=
  if Reg.pollable r = false then raise (.unadmitted r.addr) s
  else
    withOperand s (evalWord s.vars mask) fun m =>
      withOperand s (evalWord s.vars value) fun v => poll r m v s fun t => t.retNone x

end Machine
end Sys2Proof
end

