-- ==== Sys2Proof/Machine/Controller.lean ====
section
/-! DEFINITION. The controller operations (43_i2c_controller.md R210 to R217), on unit `CTRL_UNIT`. Each access is one CPU
step; the step index selects it (10_state.md R32). -/

namespace Sys2Proof
namespace Machine

/-- A bus address argument: `F_OP_ARG` for an address `>= 0x80` (43_i2c_controller.md R211; 44_i2c_target.md R241). It is checked
once its operand has a value (log 36). -/
def withBusAddress (a : Word) (s : State) (k : Outcome) : Outcome := if a.toNat < 0x80 then k else raise .opArg s

/-- IC_CON fields of the controller role (43_i2c_controller.md R211, steps 3-4). -/
def controllerConFields : List (Field × Word) :=
  [(.masterMode, 1), (.speed, 2), (.icRestartEn, 1), (.icSlaveDisable, 1)]

/-- One step of `configureAsController` with an address in range (43_i2c_controller.md R211). -/
def controllerConfigStep (x : Option Var) (a : Word) (s : State) : Outcome :=
  match s.pc.step with
  | 0 => modifyRead (.icEnable s.board.ctrlUnit) s
  | 1 => modifyWrite (.icEnable s.board.ctrlUnit) [(.enable, 0)] s State.advance
  | 2 => modifyRead (.icCon s.board.ctrlUnit) s
  | 3 => modifyWrite (.icCon s.board.ctrlUnit) controllerConFields s State.advance
  | 4 => onWrite (.icTar s.board.ctrlUnit) (assemble [(.tarAddress, a)]) s State.advance
  | 5 => modifyRead (.icEnable s.board.ctrlUnit) s
  | _ => modifyWrite (.icEnable s.board.ctrlUnit) [(.enable, 1)] s fun t => t.retNone x

/-- `C.configureAsController(targetAddress)` (43_i2c_controller.md R211). -/
def execConfigureAsController (targetAddress : Expr) (s : State) (x : Option Var := .none) : Outcome :=
  withOperand s (evalWord s.vars targetAddress) fun a => withBusAddress a s (controllerConfigStep x a s)

/-- Poll of TFNF (42_busy_wait.md R203). -/
def pollTfnf (u : UnitId) (s : State) (k : State → State) : Outcome := poll (.icStatus u) (fieldMask .tfnf) (fieldMask .tfnf) s k

/-- Poll of RFNE (42_busy_wait.md R203). -/
def pollRfne (u : UnitId) (s : State) (k : State → State) : Outcome := poll (.icStatus u) (fieldMask .rfne) (fieldMask .rfne) s k

/-- Poll of RD_REQ (42_busy_wait.md R203). -/
def pollRdReq (u : UnitId) (s : State) (k : State → State) : Outcome := poll (.icRawIntrStat u) (fieldMask .rdReq) (fieldMask .rdReq) s k

/-- Step 3 of `writeByte`: the one check of the abort flag (43_i2c_controller.md R212, R213). -/
def checkAbort (x : Option Var) (u : UnitId) (s : State) : Outcome :=
  onRead (.icRawIntrStat u) s fun v t => if getFlag .txAbrt v = false then .next (t.ret x (.bool true)) else .next t.advance

/-- `C.writeByte(byte) -> bool` (43_i2c_controller.md R212). -/
def execWriteByte (x : Option Var) (byte : Expr) (s : State) : Outcome :=
  withOperand s (evalWord s.vars byte) fun b =>
    match s.pc.step with
    | 0 => pollTfnf s.board.ctrlUnit s State.advance
    | 1 => onWrite (.icDataCmd s.board.ctrlUnit) (assemble [(.dat, b), (.cmd, 0), (.stop, 1), (.restart, 0)]) s
        State.advance
    | 2 => checkAbort x s.board.ctrlUnit s
    | 3 => onRead (.icTxAbrtSource s.board.ctrlUnit) s fun _ t => .next t.advance
    | _ => onRead (.icClrTxAbrt s.board.ctrlUnit) s fun _ t => .next (t.ret x (.bool false))

/-- `C.requestByteFromMemory()` (43_i2c_controller.md R214). -/
def execRequestByteFromMemory (s : State) (x : Option Var := .none) : Outcome :=
  match s.pc.step with
  | 0 => pollTfnf s.board.ctrlUnit s State.advance
  | _ => onWrite (.icDataCmd s.board.ctrlUnit) (assemble [(.dat, 0), (.cmd, 1), (.stop, 1), (.restart, 0)]) s
      fun t => t.setRequested.retNone x

/-- `C.receiveRequestedBytesFromMemory() -> byte or nothing` (43_i2c_controller.md R215, R216): `requested` is never
cleared. -/
def execReceiveRequestedBytesFromMemory (x : Option Var) (s : State) : Outcome :=
  match s.pc.step with
  | 0 => if s.requested = false then .next (s.ret x (.opt .none)) else .next s.advance
  | 1 => pollRfne s.board.ctrlUnit s State.advance
  | _ => onRead (.icDataCmd s.board.ctrlUnit) s fun v t => .next (t.ret x (.opt (some (getField .dat v))))

end Machine
end Sys2Proof
end

