-- ==== Sys2Proof/Machine/I2cAccess.lean ====
section
/-! DEFINITION. The meanings of the access rows of the I2C units (30_encoding.md R112; 40_register_access.md R153, R154, R156 to
R164). -/

namespace Sys2Proof
namespace Machine

/-- Read of IcCon (40_register_access.md R153). -/
def execReadIcCon (x : Option Var) (u : UnitId) (s : State) : Outcome := readStmt x (.icCon u) s

/-- Read of IcTar (40_register_access.md R153). -/
def execReadIcTar (x : Option Var) (u : UnitId) (s : State) : Outcome := readStmt x (.icTar u) s

/-- Read of IcSar (40_register_access.md R153). -/
def execReadIcSar (x : Option Var) (u : UnitId) (s : State) : Outcome := readStmt x (.icSar u) s

/-- Read of IcDataCmd (40_register_access.md R157). -/
def execReadIcDataCmd (x : Option Var) (u : UnitId) (s : State) : Outcome := readStmt x (.icDataCmd u) s

/-- Read of IcRawIntrStat (40_register_access.md R162). -/
def execReadIcRawIntrStat (x : Option Var) (u : UnitId) (s : State) : Outcome := readStmt x (.icRawIntrStat u) s

/-- Read of IcClrRdReq (40_register_access.md R158). -/
def execReadIcClrRdReq (x : Option Var) (u : UnitId) (s : State) : Outcome := readStmt x (.icClrRdReq u) s

/-- Read of IcClrTxAbrt (40_register_access.md R159). -/
def execReadIcClrTxAbrt (x : Option Var) (u : UnitId) (s : State) : Outcome := readStmt x (.icClrTxAbrt u) s

/-- Read of IcEnable (40_register_access.md R153). -/
def execReadIcEnable (x : Option Var) (u : UnitId) (s : State) : Outcome := readStmt x (.icEnable u) s

/-- Read of IcStatus (40_register_access.md R161). -/
def execReadIcStatus (x : Option Var) (u : UnitId) (s : State) : Outcome := readStmt x (.icStatus u) s

/-- Read of IcTxAbrtSource (40_register_access.md R163). -/
def execReadIcTxAbrtSource (x : Option Var) (u : UnitId) (s : State) : Outcome := readStmt x (.icTxAbrtSource u) s

/-- Read of IcEnableStatus (40_register_access.md R164). -/
def execReadIcEnableStatus (x : Option Var) (u : UnitId) (s : State) : Outcome := readStmt x (.icEnableStatus u) s

/-- Write of IcCon (40_register_access.md R154). -/
def execWriteIcCon (u : UnitId) (v : Word) (s : State) : Outcome := writeStmt (.icCon u) v s

/-- Write of IcTar (40_register_access.md R154). -/
def execWriteIcTar (u : UnitId) (v : Word) (s : State) : Outcome := writeStmt (.icTar u) v s

/-- Write of IcSar (40_register_access.md R154). -/
def execWriteIcSar (u : UnitId) (v : Word) (s : State) : Outcome := writeStmt (.icSar u) v s

/-- Write of IcEnable (40_register_access.md R160). -/
def execWriteIcEnable (u : UnitId) (v : Word) (s : State) : Outcome := writeStmt (.icEnable u) v s

/-- Write of a CW command to IC_DATA_CMD: controller write with stop (30_encoding.md R115; 40_register_access.md R156). -/
def execWriteIcDataCmdCw (u : UnitId) (dat : Byte) (s : State) : Outcome :=
  writeStmt (.icDataCmd u) (commandWord .cw dat) s

/-- Write of a CR command to IC_DATA_CMD: controller read with stop; DAT is ignored (30_encoding.md R115; 40_register_access.md R156). -/
def execWriteIcDataCmdCr (u : UnitId) (dat : Byte) (s : State) : Outcome :=
  writeStmt (.icDataCmd u) (commandWord .cr dat) s

/-- Write of a TD command to IC_DATA_CMD: target data (30_encoding.md R115; 40_register_access.md R156). -/
def execWriteIcDataCmdTd (u : UnitId) (dat : Byte) (s : State) : Outcome :=
  writeStmt (.icDataCmd u) (commandWord .td dat) s

end Machine
end Sys2Proof
end

