-- ==== Sys2Proof/Machine/PinAccess.lean ====
section
/-! DEFINITION. The meanings of the access rows of the pads, the function-select registers and the digital outputs
(30_encoding.md R112; 40_register_access.md R153, R155, R165). -/

namespace Sys2Proof
namespace Machine

/-- Read of PAD(n) (40_register_access.md R153). -/
def execReadPad (x : Option Var) (n : Pin) (s : State) : Outcome := readStmt x (.pad n) s

/-- Write of PAD(n) (40_register_access.md R155). -/
def execWritePad (n : Pin) (v : Word) (s : State) : Outcome := writeStmt (.pad n) v s

/-- Read of CTRL(n) (40_register_access.md R153). -/
def execReadCtrl (x : Option Var) (n : Pin) (s : State) : Outcome := readStmt x (.ctrl n) s

/-- Write of CTRL(n) (40_register_access.md R155). -/
def execWriteCtrl (n : Pin) (v : Word) (s : State) : Outcome := writeStmt (.ctrl n) v s

/-- Read of GpioOut (40_register_access.md R153). -/
def execReadGpioOut (x : Option Var) (s : State) : Outcome := readStmt x .gpioOut s

/-- Read of GpioOe (40_register_access.md R153). -/
def execReadGpioOe (x : Option Var) (s : State) : Outcome := readStmt x .gpioOe s

/-- Write of GpioOut (40_register_access.md R155). -/
def execWriteGpioOut (v : Word) (s : State) : Outcome := writeStmt .gpioOut v s

/-- Write of GpioOutSet (40_register_access.md R165). -/
def execWriteGpioOutSet (v : Word) (s : State) : Outcome := writeStmt .gpioOutSet v s

/-- Write of GpioOutClr (40_register_access.md R165). -/
def execWriteGpioOutClr (v : Word) (s : State) : Outcome := writeStmt .gpioOutClr v s

/-- Write of GpioOe (40_register_access.md R155). -/
def execWriteGpioOe (v : Word) (s : State) : Outcome := writeStmt .gpioOe v s

/-- Write of GpioOeSet (40_register_access.md R165). -/
def execWriteGpioOeSet (v : Word) (s : State) : Outcome := writeStmt .gpioOeSet v s

/-- Write of GpioOeClr (40_register_access.md R165). -/
def execWriteGpioOeClr (v : Word) (s : State) : Outcome := writeStmt .gpioOeClr v s

end Machine
end Sys2Proof
end

