-- ==== Sys2Proof/Machine/PinOps.lean ====
section
/-! DEFINITION. The pin operations (41_pin_configuration.md R173 to R176). An operation's argument check comes before its
first access (60_exceptions.md R314). -/

namespace Sys2Proof
namespace Machine

/-- A pin argument: `F_OP_ARG` for an index `>= NUM_GPIO` (41_pin_configuration.md R173, R174). -/
def withPin (n : Word) (s : State) (k : Pin → Outcome) : Outcome :=
  if h : n.toNat < Config.numGpio then k ⟨n.toNat, h⟩ else raise .opArg s

/-- Pad fields of a digital output (41_pin_configuration.md R173, steps 1-2). -/
def digitalPadFields : List (Field × Word) :=
  [(.od, 0), (.ie, 0), (.pue, 0), (.pde, 0), (.schmitt, 1), (.slewfast, 0)]

/-- Pad fields of an I2C signal (41_pin_configuration.md R174, steps 1-2). -/
def signalPadFields (pullUp : Bool) : List (Field × Word) :=
  [(.ie, 1), (.pue, bit pullUp), (.pde, 0), (.schmitt, 1)]

/-- One step of `configureDigitalOutputPin` on a pin in range (41_pin_configuration.md R173). -/
def digitalOutputStep (x : Option Var) (p : Pin) (s : State) : Outcome :=
  match s.pc.step with
  | 0 => modifyRead (.pad p) s
  | 1 => modifyWrite (.pad p) digitalPadFields s State.advance
  | 2 => onWrite (.ctrl p) (assemble [(.funcsel, 5)]) s State.advance
  | 3 => modifyRead (.pad p) s
  | 4 => modifyWrite (.pad p) [(.iso, 0)] s State.advance
  | _ => onWrite .gpioOeSet (1 <<< p.val) s fun t => t.retNone x

/-- `configureDigitalOutputPin(n)` (41_pin_configuration.md R173). A value `n` that is no word is a free word (log 16). -/
def execConfigureDigitalOutputPin (n : Expr) (s : State) (x : Option Var := .none) : Outcome :=
  withOperand s (evalWord s.vars n) fun w => withPin w s fun p => digitalOutputStep x p s

/-- One step of `configureSignalPin` on a pin in range (41_pin_configuration.md R174). -/
def signalPinStep (x : Option Var) (p : Pin) (pullUp : Bool) (s : State) : Outcome :=
  match s.pc.step with
  | 0 => modifyRead (.pad p) s
  | 1 => modifyWrite (.pad p) (signalPadFields pullUp) s State.advance
  | 2 => onWrite (.ctrl p) (assemble [(.funcsel, 3)]) s State.advance
  | 3 => modifyRead (.pad p) s
  | _ => modifyWrite (.pad p) [(.iso, 0)] s fun t => t.retNone x

/-- `configureSignalPin(n, internalPullUp)` (41_pin_configuration.md R174). DESIGN CHOICE: both operands are evaluated before the
pin index is checked (log 36), and a value `n` that is no word is a free word (log 16). -/
def execConfigureSignalPin (n internalPullUp : Expr) (s : State) (x : Option Var := .none) : Outcome :=
  withOperand s (evalWord s.vars n) fun w =>
    withOperand s (evalBool s.vars internalPullUp) fun pullUp =>
      withPin w s fun p => signalPinStep x p pullUp s

end Machine
end Sys2Proof
end

