-- ==== Sys2Proof/Machine/Target.lean ====
section
/-! DEFINITION. The target operations (44_i2c_target.md R240 to R245), on unit `TGT_UNIT`. -/

namespace Sys2Proof
namespace Machine

/-- IC_CON fields of the target role (44_i2c_target.md R241, steps 3-4). -/
def targetConFields : List (Field × Word) :=
  [(.masterMode, 0), (.speed, 2), (.icRestartEn, 1), (.icSlaveDisable, 0)]

/-- One step of `configureAsTarget` with an address in range (44_i2c_target.md R241). -/
def targetConfigStep (x : Option Var) (a : Word) (s : State) : Outcome :=
  match s.pc.step with
  | 0 => modifyRead (.icEnable s.board.tgtUnit) s
  | 1 => modifyWrite (.icEnable s.board.tgtUnit) [(.enable, 0)] s State.advance
  | 2 => modifyRead (.icCon s.board.tgtUnit) s
  | 3 => modifyWrite (.icCon s.board.tgtUnit) targetConFields s State.advance
  | 4 => onWrite (.icSar s.board.tgtUnit) (assemble [(.sarAddress, a)]) s
      fun t => (t.setTargetAddress (a.truncate 7)).advance
  | 5 => modifyRead (.icEnable s.board.tgtUnit) s
  | _ => modifyWrite (.icEnable s.board.tgtUnit) [(.enable, 1)] s fun t => t.retNone x

/-- `T.configureAsTarget(address)` (44_i2c_target.md R241). -/
def execConfigureAsTarget (address : Expr) (s : State) (x : Option Var := .none) : Outcome :=
  withOperand s (evalWord s.vars address) fun a => withBusAddress a s (targetConfigStep x a s)

/-- `T.receiveBytesToMemory()` (44_i2c_target.md R242): the byte received, plus one modulo 256, is stored. -/
def execReceiveBytesToMemory (s : State) (x : Option Var := .none) : Outcome :=
  match s.pc.step with
  | 0 => pollRfne s.board.tgtUnit s State.advance
  | _ => onRead (.icDataCmd s.board.tgtUnit) s fun v t =>
      .next ((t.setMemoryValue ((getField .dat v).truncate 8 + 1)).retNone x)

/-- The byte to serve: `memoryValue`, or 0 if nothing is stored (44_i2c_target.md R243, step 3). -/
def servedByte (s : State) : Byte :=
  match s.memoryValue with
  | some b => b
  | .none => 0

/-- `T.serveBytesFromMemory()` (44_i2c_target.md R243). -/
def execServeBytesFromMemory (s : State) (x : Option Var := .none) : Outcome :=
  match s.pc.step with
  | 0 => pollRdReq s.board.tgtUnit s State.advance
  | 1 => onRead (.icClrRdReq s.board.tgtUnit) s fun _ t => .next t.advance
  | _ => onWrite (.icDataCmd s.board.tgtUnit)
      (assemble [(.dat, (servedByte s).zeroExtend 32), (.cmd, 0), (.stop, 0), (.restart, 0)]) s fun t => t.retNone x

end Machine
end Sys2Proof
end

