-- ==== Sys2Proof/Machine/Dispatch.lean ====
section
/-! DEFINITION. The dispatch: one arm per instruction. -/

namespace Sys2Proof
namespace Machine

def exec (i : Instr) (s : State) : Host.Outcome State Fault Refusal :=
  match i with
  | .readIcCon x u => Sys2Proof.Machine.execReadIcCon x u s
  | .writeIcCon u v => Sys2Proof.Machine.execWriteIcCon u v s
  | .readIcTar x u => Sys2Proof.Machine.execReadIcTar x u s
  | .writeIcTar u v => Sys2Proof.Machine.execWriteIcTar u v s
  | .readIcSar x u => Sys2Proof.Machine.execReadIcSar x u s
  | .writeIcSar u v => Sys2Proof.Machine.execWriteIcSar u v s
  | .readIcDataCmd x u => Sys2Proof.Machine.execReadIcDataCmd x u s
  | .writeIcDataCmdCw u dat => Sys2Proof.Machine.execWriteIcDataCmdCw u dat s
  | .writeIcDataCmdCr u dat => Sys2Proof.Machine.execWriteIcDataCmdCr u dat s
  | .writeIcDataCmdTd u dat => Sys2Proof.Machine.execWriteIcDataCmdTd u dat s
  | .readIcRawIntrStat x u => Sys2Proof.Machine.execReadIcRawIntrStat x u s
  | .readIcClrRdReq x u => Sys2Proof.Machine.execReadIcClrRdReq x u s
  | .readIcClrTxAbrt x u => Sys2Proof.Machine.execReadIcClrTxAbrt x u s
  | .readIcEnable x u => Sys2Proof.Machine.execReadIcEnable x u s
  | .writeIcEnable u v => Sys2Proof.Machine.execWriteIcEnable u v s
  | .readIcStatus x u => Sys2Proof.Machine.execReadIcStatus x u s
  | .readIcTxAbrtSource x u => Sys2Proof.Machine.execReadIcTxAbrtSource x u s
  | .readIcEnableStatus x u => Sys2Proof.Machine.execReadIcEnableStatus x u s
  | .readPad x n => Sys2Proof.Machine.execReadPad x n s
  | .writePad n v => Sys2Proof.Machine.execWritePad n v s
  | .readCtrl x n => Sys2Proof.Machine.execReadCtrl x n s
  | .writeCtrl n v => Sys2Proof.Machine.execWriteCtrl n v s
  | .readGpioOut x => Sys2Proof.Machine.execReadGpioOut x s
  | .writeGpioOut v => Sys2Proof.Machine.execWriteGpioOut v s
  | .writeGpioOutSet v => Sys2Proof.Machine.execWriteGpioOutSet v s
  | .writeGpioOutClr v => Sys2Proof.Machine.execWriteGpioOutClr v s
  | .readGpioOe x => Sys2Proof.Machine.execReadGpioOe x s
  | .writeGpioOe v => Sys2Proof.Machine.execWriteGpioOe v s
  | .writeGpioOeSet v => Sys2Proof.Machine.execWriteGpioOeSet v s
  | .writeGpioOeClr v => Sys2Proof.Machine.execWriteGpioOeClr v s
  | .read x r => Sys2Proof.Machine.execRead x r s
  | .write r arg x => Sys2Proof.Machine.execWrite r arg s x
  | .modify r fs x => Sys2Proof.Machine.execModify r fs s x
  | .configureDigitalOutputPin n x => Sys2Proof.Machine.execConfigureDigitalOutputPin n s x
  | .configureSignalPin n internalPullUp x => Sys2Proof.Machine.execConfigureSignalPin n internalPullUp s x
  | .waitForCondition r mask value x => Sys2Proof.Machine.execWaitForCondition r mask value s x
  | .configureAsController targetAddress x => Sys2Proof.Machine.execConfigureAsController targetAddress s x
  | .writeByte x byte => Sys2Proof.Machine.execWriteByte x byte s
  | .requestByteFromMemory x => Sys2Proof.Machine.execRequestByteFromMemory s x
  | .receiveRequestedBytesFromMemory x => Sys2Proof.Machine.execReceiveRequestedBytesFromMemory x s
  | .configureAsTarget address x => Sys2Proof.Machine.execConfigureAsTarget address s x
  | .receiveBytesToMemory x => Sys2Proof.Machine.execReceiveBytesToMemory s x
  | .serveBytesFromMemory x => Sys2Proof.Machine.execServeBytesFromMemory s x

end Machine
end Sys2Proof
end

