-- ==== Sys2Proof/Machine/Step.lean ====
section
/-! DEFINITION. The step: one atomic step of whoever has the turn (10_state.md R30; 20_memory.md R90), none once FAULT is set
(10_state.md R53; 60_exceptions.md R313). -/

namespace Sys2Proof
namespace Machine

/-- The CPU's step: the instruction at the program counter, or the statement that holds none. -/
def cpuStep (s : State) : Outcome :=
  match fetchInstr s with
  | some i => exec i s
  | .none => runOther s

/-- What a turn does before the turn passes. -/
def act (s : State) : Outcome :=
  match s.turn with
  | .cpu => cpuStep s
  | .bus b => busTurn b s

/-- One step of the machine. -/
def step (s : State) : Host.Outcome State Fault Refusal :=
  match s.fault with
  | some f => .fault f
  | .none => endTurn (act s)

/-- The access of a table word placed where the CPU takes its next instruction (log 21, log 22). -/
def State.withFetchWord (s : State) (nbits w : Nat) : State := loadAccess (tableAccess nbits w) s

end Machine
end Sys2Proof
end

