-- ==== Sys2Proof/Safety.lean ====
section
/-! DEFINITION. What claims about runs are stated in: schedules, an operation run without interleaving, the end of a run
(30_encoding.md R143), weak fairness (45_i2c_bus_engine.md R280), and the invariants of the machine. -/

namespace Sys2Proof
namespace Machine

/-! ## Runs -/

/-- One step in which `who` has the turn. -/
def stepAs (who : Turn) (s : State) : Outcome := step { s with turn := who }

/-- A run along a schedule: an interleaving of atomic steps (20_memory.md R90). -/
def runAs : List Turn → State → Outcome
  | [], s => .next s
  | who :: rest, s =>
    match stepAs who s with
    | .next t => runAs rest t
    | o => o

/-- `n` CPU steps of one instruction with no bus step between them. -/
def execTimes : Nat → Instr → State → Outcome
  | 0, _, s => .next s
  | n + 1, i, s =>
    match exec i s with
    | .next t => execTimes n i t
    | o => o

/-- An infinite execution: state `ρ k` steps to `ρ (k + 1)` with the turn at `who k`. -/
def IsRun (ρ : Nat → State) (who : Nat → Turn) : Prop := ∀ k, stepAs (who k) (ρ k) = .next (ρ (k + 1))

/-- Weak fairness (45_i2c_bus_engine.md R280): the CPU, while it has a statement to run, and each bus step but BUS-LOST, if
enabled from some point on, is taken after that point. -/
def WeaklyFair (ρ : Nat → State) (who : Nat → Turn) : Prop :=
  (∀ n, (∀ k, n ≤ k → (ρ k).halted = false) → ∃ k, n ≤ k ∧ who k = .cpu) ∧
    ∀ b, (∀ c, b ≠ .lost c) → ∀ n, (∀ k, n ≤ k → (ρ k).busEnabled b = true) → ∃ k, n ≤ k ∧ who k = .bus b

/-- The end of a run (30_encoding.md R143). -/
def Ended (s : State) : Prop :=
  s.halted = true ∧ s.phase = .idle ∧ (∀ u, (s.unit u).txf = []) ∧ s.fault = .none

/-- Two states that differ at most in the model's own fields `turn`, `turnCount` and `drawCount`. -/
def SameMachine (s t : State) : Prop :=
  t = { s with turn := t.turn, turnCount := t.turnCount, drawCount := t.drawCount }

/-- Two states that differ at most on the CPU side (program counter, variables, latch, driver objects) and in the draws used. -/
structure SameHardware (m t : State) : Prop where
  board : t.board = m.board
  program : t.program = m.program
  units : ∀ u, t.unit u = m.unit u
  phase : t.phase = m.phase
  pads : ∀ n, t.pad n = m.pad n
  ctrls : ∀ n, t.ctrl n = m.ctrl n
  sioOut : t.sioOut = m.sioOut
  sioOe : t.sioOe = m.sioOe
  fault : t.fault = m.fault
  turn : t.turn = m.turn
  turnCount : t.turnCount = m.turnCount

/-- Two states that agree on the CPU side. -/
structure SameCpu (m t : State) : Prop where
  board : t.board = m.board
  program : t.program = m.program
  pc : t.pc = m.pc
  vars : t.vars = m.vars
  latch : t.latch = m.latch
  requested : t.requested = m.requested
  memoryValue : t.memoryValue = m.memoryValue
  targetAddress : t.targetAddress = m.targetAddress

/-! ## Invariants -/

/-- No bit outside a register's admitted value pattern is set (30_encoding.md R112), and the caller's variables are in their
canonical form (log 31). -/
structure RegistersInv (s : State) : Prop where
  con : ∀ u, (s.unit u).icCon >>> 10 = 0
  tar : ∀ u, (s.unit u).icTar >>> 12 = 0
  sar : ∀ u, (s.unit u).icSar >>> 10 = 0
  enable : ∀ u, (s.unit u).icEnable >>> 1 = 0
  pad : ∀ n, s.pad n >>> 9 = 0
  ctrl : ∀ n, s.ctrl n >>> 5 = 0
  out : s.sioOut >>> Config.numGpio = 0
  oe : s.sioOe >>> Config.numGpio = 0
  vars : VarsWf s.vars

/-- A unit's protocol state: FIFOs within their depth (10_state.md R46), a role exactly while enabled (R47), empty FIFOs while
disabled, the configuration that the enabling write admitted (40_register_access.md R160), a controller with at most one
command (45_i2c_bus_engine.md R278), command forms of the role (30_encoding.md R115), nothing queued under an abort
(R273). -/
structure UnitInv (un : UnitState) : Prop where
  txDepth : un.txf.length ≤ Config.fifoDepth
  rxDepth : un.rxf.length ≤ Config.fifoDepth
  roleEnabled : un.role = .none ↔ un.enabled = false
  disabledEmpty : un.enabled = false → un.txf = [] ∧ un.rxf = []
  config : un.enabled = true → un.configLegal = true ∧ un.role = requestedRole un.icCon
  oneCommand : un.role = .controller → un.txf.length ≤ 1
  controllerForms : un.role = .controller → ∀ c, c ∈ un.txf → c.stop = true ∧ c.restart = false
  targetForms : un.role = .target → ∀ c, c ∈ un.txf → c.cmd = false ∧ c.stop = false ∧ c.restart = false
  abortFlushed : un.role = .controller → un.txAbrt = true → un.txf = []

/-- The protocol state of both units and the bus: a pending read names a controller and the target that acknowledged it
(10_state.md R48), and the controller's command has been taken. -/
structure ProtocolInv (s : State) : Prop where
  unit : ∀ u, UnitInv (s.unit u)
  pending : ∀ c t, s.phase = .readPending c t →
    t = otherUnit c ∧ (s.unit c).role = .controller ∧ (s.unit t).role = .target ∧ (s.unit c).txf = []

end Machine
end Sys2Proof
end

