-- ==== Sys2Proof/Certificates/Slice0/Obligations.lean ====
section
/-! DEFINITION. The statements for the provers, from the numbered rules of spec/. The fields `turn`, `turnCount` and `drawCount` are
the model's own (log 6, log 8): no statement gives them a value that a draw or a schedule could show, and `s.draw k` is a free
value. `execTimes n i s` is `exec i` n times, with no joint step between; where the first `exec` of an operation is stated too, it is
the operation's first access. `s.retNone x` completes an operation without a result: without an `x` it is `s.finish`, and what a
given `x` then holds is a free value (log 35; `CallerStatementsRun`). `u`, `c` are units; `otherUnit c` is the unit `t = 1 - c` of
45_i2c_bus_engine.md. -/

section

open Sys2Proof Sys2Proof.Machine

/-! ## Encoding -/

/-- Accesses of 95_test_vectors.md, written out from 30_encoding.md R110 to R112 and R115: those the table admits decode to their
instructions (X1, X8, X11, K1, K4, K6 and more), and the others are refused with the reason of R113 (X2 to X7, X9, X10, X12, A5 to
A9). -/
def Obligations.SampleAccessesDecode : Prop :=
  (decode (.read none 0x40090070 4) = .ok (.readIcStatus none 0) ∧
  decode (.read none 0x40038078 4) = .ok (.readPad none 29) ∧
  decode (.read none 0x400280CC 4) = .ok (.readCtrl none 25) ∧
  decode (.write 0x40098008 4 0x2A) = .ok (.writeIcSar 1 0x2A) ∧
  decode (.write 0x40090010 4 0x2A5) = .ok (.writeIcDataCmdCw 0 0xA5) ∧
  decode (.write 0x40090010 4 0x300) = .ok (.writeIcDataCmdCr 0 0x00) ∧
  decode (.write 0x40098010 4 0xA6) = .ok (.writeIcDataCmdTd 1 0xA6) ∧
  decode (.write 0x4009006C 4 1) = .ok (.writeIcEnable 0 1) ∧
  decode (.write 0xD0000038 4 0x02000000) = .ok (.writeGpioOeSet 0x02000000)) ∧
  (decode (.read none 0x40090072 4) = .error (.access 0x40090072) ∧
  decode (.read none 0x40090070 1) = .error (.access 0x40090070) ∧
  decode (.write 0x40090070 4 0) = .error (.unadmitted 0x40090070) ∧
  decode (.read none 0x40090030 4) = .error (.unadmitted 0x40090030) ∧
  decode (.write 0x40092010 4 0) = .error (.unadmitted 0x40092010) ∧
  decode (.read none 0x40038000 4) = .error (.unadmitted 0x40038000) ∧
  decode (.read none 0x4003807C 4) = .error (.unadmitted 0x4003807C) ∧
  decode (.read none 0x40028020 4) = .error (.unadmitted 0x40028020) ∧
  decode (.write 0x40000000 4 0) = .error (.unadmitted 0x40000000) ∧
  decode (.write 0x40090000 4 0x465) = .error (.unadmitted 0x40090000) ∧
  decode (.write 0x4009006C 4 2) = .error (.unadmitted 0x4009006C) ∧
  decode (.write 0x40038014 4 0x200) = .error (.unadmitted 0x40038014) ∧
  decode (.write 0x40028024 4 0x3003) = .error (.unadmitted 0x40028024) ∧
  decode (.write 0xD0000018 4 0x40000000) = .error (.unadmitted 0xD0000018))

/-- Decode and encode agree: every well-formed access row, with every operand at every value its encoding admits, comes back
from its access (30_encoding.md R112 to R115). -/
def Obligations.DecodeOfEncodeIsTheInstruction : Prop :=
  ∀ (i : Instr) (a : Access), i.wf = true → encode i = some a → decode a = .ok i

/-- An access has one meaning: what the decoder reads is well formed and is encoded by that very access, so no bit of the address,
the width or the value is dropped (30_encoding.md R113, R118). -/
def Obligations.EncodeOfDecodeIsTheAccess : Prop :=
  ∀ (a : Access) (i : Instr), decode a = .ok i → i.wf = true ∧ encode i = some a

/-- A refused access sets FAULT and changes nothing else. In either direction: one that is not an aligned 32-bit word is
`F_ACCESS(addr)`, whatever its address (20_memory.md R83, R84; decision D4), and an aligned one to an address that is no register of
30_encoding.md R112 is `F_UNADMITTED(addr)` (20_memory.md R86; decision D5). So is a read of a write-only register, a write of a
read-only one, and a write whose value is outside the register's pattern; for IC_DATA_CMD that is a reserved bit 31:12 (log 33).
Any other value of IC_DATA_CMD that is no command form is refused by the port's own checks (40_register_access.md R156; log 26). -/
def Obligations.RefusedAccessIsAFault : Prop :=
  ∀ (s : State) (x : Option Var) (addr v : Word) (width : Nat), s.fault = none →
    ((s.currentStmt = some (.access (.read x addr width)) ∨ s.currentStmt = some (.access (.write addr width v))) →
      ((width ≠ 4 ∨ addr &&& 3 ≠ 0) → cpuStep s = .next (s.setFault (.access addr))) ∧
      (width = 4 → addr &&& 3 = 0 → (∀ r : Reg, r.addr ≠ addr) → cpuStep s = .next (s.setFault (.unadmitted addr)))) ∧
    (∀ r : Reg, s.currentStmt = some (.access (.read x r.addr 4)) →
      (r = .gpioOutSet ∨ r = .gpioOutClr ∨ r = .gpioOeSet ∨ r = .gpioOeClr) →
      cpuStep s = .next (s.setFault (.unadmitted r.addr))) ∧
    (∀ r : Reg, s.currentStmt = some (.access (.write r.addr 4 v)) →
      (match r with
        | .icCon _ | .icSar _ => v >>> 10 ≠ 0
        | .icTar _ | .icDataCmd _ => v >>> 12 ≠ 0
        | .icEnable _ => v >>> 1 ≠ 0
        | .pad _ => v >>> 9 ≠ 0
        | .ctrl _ => v >>> 5 ≠ 0
        | .gpioOut | .gpioOutSet | .gpioOutClr | .gpioOe | .gpioOeSet | .gpioOeClr => v >>> 30 ≠ 0
        | .icRawIntrStat _ | .icClrRdReq _ | .icClrTxAbrt _ | .icStatus _ | .icTxAbrtSource _ | .icEnableStatus _ => True) →
      cpuStep s = .next (s.setFault (.unadmitted r.addr))) ∧
    (∀ u : UnitId, s.currentStmt = some (.access (.write (Reg.icDataCmd u).addr 4 v)) → v >>> 12 = 0 →
      v >>> 8 ≠ 0 → v >>> 8 ≠ 2 → v >>> 8 ≠ 3 →
      ((s.unit u).icEnable.getLsbD 0 = false → cpuStep s = .next (s.setFault (.unitDisabled u))) ∧
      ((s.unit u).icEnable.getLsbD 0 = true → cpuStep s = .next (s.setFault (.unadmittedCmd u v))))

/-! ## The step -/

/-- A step of the CPU runs the instruction at the program counter, whether the statement names it or is an access that decodes
to it; around `exec` the step only passes the turn (10_state.md R30; 20_memory.md R90). The program counter is moved by the
instruction itself. -/
def Obligations.StepRunsTheDecodedInstruction : Prop :=
  ∀ (s : State) (i : Instr), s.fault = none → s.turn = .cpu →
    (s.currentStmt = some (.instr i) ∨ ∃ a, s.currentStmt = some (.access a) ∧ decode a = .ok i) →
    step s = match exec i s with
      | .next t => .next { t with turn := Config.nextTurn t.turnCount, turnCount := t.turnCount + 1 }
      | .fault f => .fault f
      | .refused r => .refused r

/-- A step at a turn of the bus agent is that joint step, and then the turn passes (45_i2c_bus_engine.md R270). -/
def Obligations.StepRunsTheJointStep : Prop :=
  ∀ (s : State) (b : BusStep), s.fault = none → s.turn = .bus b →
    step s = match busTurn b s with
      | .next t => .next { t with turn := Config.nextTurn t.turnCount, turnCount := t.turnCount + 1 }
      | .fault f => .fault f
      | .refused r => .refused r

/-- Once FAULT is set no agent takes a step, whoever has the turn (10_state.md R53; 60_exceptions.md R313, R315). -/
def Obligations.StoppedMachineTakesNoStep : Prop :=
  ∀ (s : State) (f : Fault) (who : Turn) (rest : List Turn), s.fault = some f → runAs (who :: rest) s = .fault f

/-- Fault entry is precise: a step that sets FAULT found it clear and changes nothing else of the machine; `pc` stays at the
faulting access (60_exceptions.md R313). -/
def Obligations.FaultEntryChangesNothingElse : Prop :=
  ∀ (s t : State) (f : Fault), step s = .next t → t.fault = some f →
    s.fault = none ∧ t = { s with fault := some f, turn := t.turn, turnCount := t.turnCount }

/-- The launch state (10_state.md R54; 70_reset_and_hazards.md R340): the values the spec gives. -/
def Obligations.ResetIsTheLaunchState : Prop :=
  (∀ u, State.reset.unit u =
    { icCon := 0x65, icTar := 0x055, icSar := 0x055, icEnable := 0, txf := [], rxf := [], txAbrt := false, rdReq := false,
      abrtSrc := 0, role := .none }) ∧
  State.reset.phase = .idle ∧ (∀ n, State.reset.pad n = 0x116 ∧ State.reset.ctrl n = 0x1F) ∧
  State.reset.sioOut = 0 ∧ State.reset.sioOe = 0 ∧ State.reset.fault = none ∧ State.reset.requested = false ∧
  State.reset.memoryValue = none ∧ State.reset.vars = [] ∧ State.reset.pc = ⟨0, 0⟩

/-! ## Invariants -/

/-- Both invariants hold at reset (10_state.md R54). -/
def Obligations.InvariantsHoldAtReset : Prop := RegistersInv State.reset ∧ ProtocolInv State.reset

/-- No step sets a bit that a register's pattern does not admit (20_memory.md R86; 30_encoding.md R112). The canonical form of the
variables is the model's (log 31). -/
def Obligations.RegisterPatternsAreKept : Prop :=
  ∀ s t : State, RegistersInv s → step s = .next t → RegistersInv t

/-- Every step keeps the protocol state legal: FIFO bounds (10_state.md R46), the role exactly while enabled (R47), a legal
configuration while enabled (40_register_access.md R160), at most one controller command (45_i2c_bus_engine.md R278), command
forms of the role (30_encoding.md R115), and a pending read that names an enabled controller and an enabled target (10_state.md
R48). -/
def Obligations.ProtocolStateStaysLegal : Prop :=
  ∀ s t : State, ProtocolInv s → step s = .next t → ProtocolInv t

/-- The program text and the board are fixed (20_memory.md R94; 00_scope.md R10). -/
def Obligations.ProgramAndBoardAreFixed : Prop :=
  ∀ s t : State, step s = .next t → t.program = s.program ∧ t.board = s.board

/-- Footprint of a joint step (45_i2c_bus_engine.md R281), with the CPU side and every pin's role (41_pin_configuration.md R172)
left alone; it only adds received bytes and only takes queued commands. -/
def Obligations.JointStepFootprint : Prop :=
  ∀ (s t : State) (b : BusStep), busTurn b s = .next t →
    SameCpu s t ∧ (∀ n, t.pad n = s.pad n ∧ t.ctrl n = s.ctrl n ∧ t.pinRole n = s.pinRole n) ∧
    t.sioOut = s.sioOut ∧ t.sioOe = s.sioOe ∧
    ∀ u, (t.unit u).icCon = (s.unit u).icCon ∧ (t.unit u).icTar = (s.unit u).icTar ∧
      (t.unit u).icSar = (s.unit u).icSar ∧ (t.unit u).icEnable = (s.unit u).icEnable ∧
      (t.unit u).role = (s.unit u).role ∧ (s.unit u).rxf <+: (t.unit u).rxf ∧ (t.unit u).txf <:+ (s.unit u).txf

/-- `PHASE` is written by the bus alone: no instruction changes it, and none changes the program, the board or the schedule
(10_state.md R48; 20_memory.md R94). -/
def Obligations.InstructionsLeaveTheBusStateAlone : Prop :=
  ∀ (i : Instr) (s t : State), exec i s = .next t →
    t.phase = s.phase ∧ t.program = s.program ∧ t.board = s.board ∧ t.turn = s.turn ∧ t.turnCount = s.turnCount

/-- `requested` is never cleared, and only `requestByteFromMemory` sets it (10_state.md R33; 43_i2c_controller.md R216). -/
def Obligations.RequestedIsSetOnlyByARequest : Prop :=
  ∀ s t : State, step s = .next t → t.requested ≠ s.requested →
    t.requested = true ∧ s.turn = .cpu ∧ ∃ x, fetchInstr s = some (.requestByteFromMemory x)

/-- `memoryValue` is "Mutated only by the receive operation", and the stored address only by `configureAsTarget` (10_state.md
R34). -/
def Obligations.MemoryValueChangesOnlyByReceive : Prop :=
  ∀ s t : State, step s = .next t →
    (t.memoryValue ≠ s.memoryValue → s.turn = .cpu ∧ ∃ x, fetchInstr s = some (.receiveBytesToMemory x)) ∧
    (t.targetAddress ≠ s.targetAddress → s.turn = .cpu ∧ ∃ x e, fetchInstr s = some (.configureAsTarget e x))

/-- How RD_REQ and TX_ABRT change (10_state.md R49). By an instruction: cleared by its read of IC_CLR_RD_REQ or IC_CLR_TX_ABRT
(the access row, `read`, step 2 of `serveBytesFromMemory`, step 5 of `writeByte`, whose index 4 or more is log 24), or drawn at a
disable; by no other statement. By the bus: RD_REQ is set by BUS-READ-ADDR alone, TX_ABRT by BUS-LOST, or by BUS-WRITE or
BUS-READ-ADDR that the target does not acknowledge, and no joint step clears either. -/
def Obligations.StatusFlagsChangeOnlyAsListed : Prop :=
  (∀ (i : Instr) (s t : State) (u : UnitId), exec i s = .next t →
    ((t.unit u).rdReq ≠ (s.unit u).rdReq →
      (s.unit u).enabled = true ∧ (t.unit u).enabled = false ∨
      (t.unit u).rdReq = false ∧ ((∃ x, i = .readIcClrRdReq x u ∨ i = .read x (.icClrRdReq u)) ∨
        (∃ x, i = .serveBytesFromMemory x) ∧ u = s.board.tgtUnit ∧ s.pc.step = 1)) ∧
    ((t.unit u).txAbrt ≠ (s.unit u).txAbrt →
      (s.unit u).enabled = true ∧ (t.unit u).enabled = false ∨
      (t.unit u).txAbrt = false ∧ ((∃ x, i = .readIcClrTxAbrt x u ∨ i = .read x (.icClrTxAbrt u)) ∨
        (∃ x e, i = .writeByte x e) ∧ u = s.board.ctrlUnit ∧ 4 ≤ s.pc.step))) ∧
  (∀ (s t : State) (u : UnitId), fetchInstr s = none → cpuStep s = .next t →
    (t.unit u).rdReq = (s.unit u).rdReq ∧ (t.unit u).txAbrt = (s.unit u).txAbrt) ∧
  (∀ (b : BusStep) (s t : State) (u : UnitId), busTurn b s = .next t →
    ((t.unit u).rdReq ≠ (s.unit u).rdReq → (t.unit u).rdReq = true ∧ b = .readAddr (otherUnit u)) ∧
    ((t.unit u).txAbrt ≠ (s.unit u).txAbrt → (t.unit u).txAbrt = true ∧ (t.unit u).txf = [] ∧
      (b = .lost u ∨ (b = .write u ∨ b = .readAddr u) ∧ s.busUp u = true ∧ s.acks u (otherUnit u) = false)))

/-! ## Reads -/

/-- Storage registers read as stored and reading changes nothing (40_register_access.md R153). The premise is an invariant of the
machine (`RegisterPatternsAreKept`): reserved bits of a stored register are 0. -/
def Obligations.StorageRegistersReadAsStored : Prop :=
  ∀ (s : State) (x : Option Var), RegistersInv s →
    (∀ u, exec (.readIcCon x u) s = .next (s.ret x (.word (s.unit u).icCon)) ∧
      exec (.readIcTar x u) s = .next (s.ret x (.word (s.unit u).icTar)) ∧
      exec (.readIcSar x u) s = .next (s.ret x (.word (s.unit u).icSar)) ∧
      exec (.readIcEnable x u) s = .next (s.ret x (.word (s.unit u).icEnable))) ∧
    (∀ n, exec (.readPad x n) s = .next (s.ret x (.word (s.pad n))) ∧
      exec (.readCtrl x n) s = .next (s.ret x (.word (s.ctrl n)))) ∧
    exec (.readGpioOut x) s = .next (s.ret x (.word s.sioOut)) ∧
    exec (.readGpioOe x) s = .next (s.ret x (.word s.sioOe))

/-- IC_STATUS shows the FIFOs (40_register_access.md R161), enabled or not; bits 0, 5, 6 are the draw's, and nothing but the count of
draws changes. -/
def Obligations.StatusReadShowsTheFifos : Prop :=
  ∀ (s : State) (x : Option Var) (u : UnitId), ∃ v : Word,
    exec (.readIcStatus x u) s = .next ((s.drew 1).ret x (.word v)) ∧
    v.getLsbD 1 = decide ((s.unit u).txf.length < 16) ∧ v.getLsbD 2 = decide ((s.unit u).txf.length = 0) ∧
    v.getLsbD 3 = decide (0 < (s.unit u).rxf.length) ∧ v.getLsbD 4 = decide ((s.unit u).rxf.length = 16) ∧
    v.getLsbD 0 = (s.draw 0).getLsbD 0 ∧ v.getLsbD 5 = (s.draw 0).getLsbD 5 ∧ v.getLsbD 6 = (s.draw 0).getLsbD 6 ∧
    v >>> 7 = 0

/-- IC_RAW_INTR_STAT shows RD_REQ and TX_ABRT, with bits 31:13 zero and the others drawn (40_register_access.md R162; decision D20);
bit 0 of IC_ENABLE_STATUS always equals ENABLE, with bits 1 and 2 drawn and the rest zero (R164; decision D18). -/
def Obligations.RawAndEnableStatusShowTheTrackedBits : Prop :=
  ∀ (s : State) (x : Option Var) (u : UnitId),
    (∃ v : Word, exec (.readIcRawIntrStat x u) s = .next ((s.drew 1).ret x (.word v)) ∧
      v.getLsbD 5 = (s.unit u).rdReq ∧ v.getLsbD 6 = (s.unit u).txAbrt ∧ v >>> 13 = 0 ∧
      v &&& 0x1F9F#32 = s.draw 0 &&& 0x1F9F#32) ∧
    (∃ v : Word, exec (.readIcEnableStatus x u) s = .next ((s.drew 1).ret x (.word v)) ∧
      v.getLsbD 0 = (s.unit u).icEnable.getLsbD 0 ∧ v &&& 0x6#32 = s.draw 0 &&& 0x6#32 ∧ v >>> 3 = 0)

/-- IC_TX_ABRT_SOURCE shows ABRT_SRC with bits 31:23 drawn, and reading it clears nothing (40_register_access.md R163). -/
def Obligations.AbortSourceReadShowsTheReason : Prop :=
  ∀ (s : State) (x : Option Var) (u : UnitId), ∃ v : Word,
    exec (.readIcTxAbrtSource x u) s = .next ((s.drew 1).ret x (.word v)) ∧
    v &&& 0x007FFFFF = (s.unit u).abrtSrc &&& 0x007FFFFF ∧ v >>> 23 = s.draw 0 >>> 23

/-- A read of IC_DATA_CMD takes the oldest received byte, with bit 11 drawn (40_register_access.md R157); while disabled, or with
nothing received, it is a fault, the disabled unit first (decisions D9, D16). -/
def Obligations.DataReadPopsTheOldestByte : Prop :=
  ∀ (s : State) (x : Option Var) (u : UnitId),
    (∀ b rest, (s.unit u).icEnable.getLsbD 0 = true → (s.unit u).rxf = b :: rest →
      ∃ v : Word, (v = b.zeroExtend 32 ∨ v = b.zeroExtend 32 ||| 0x800) ∧
        exec (.readIcDataCmd x u) s =
          .next (((s.setUnit u { s.unit u with rxf := rest }).drew 1).ret x (.word v))) ∧
    (s.fault = none → (s.unit u).icEnable.getLsbD 0 = false →
      exec (.readIcDataCmd x u) s = .next (s.setFault (.unitDisabled u))) ∧
    (s.fault = none → (s.unit u).icEnable.getLsbD 0 = true → (s.unit u).rxf = [] →
      exec (.readIcDataCmd x u) s = .next (s.setFault (.rxUnderflow u)))

/-- The clear registers: a read clears its flag (and for the abort its reason) and nothing else, and returns 0 or 1
(40_register_access.md R158, R159; decision D19). -/
def Obligations.ClearReadsClearTheirFlags : Prop :=
  ∀ (s : State) (x : Option Var) (u : UnitId),
    (∃ v : Word, (v = 0 ∨ v = 1) ∧ exec (.readIcClrRdReq x u) s =
      .next (((s.setUnit u { s.unit u with rdReq := false }).drew 1).ret x (.word v))) ∧
    (∃ v : Word, (v = 0 ∨ v = 1) ∧ exec (.readIcClrTxAbrt x u) s =
      .next (((s.setUnit u { s.unit u with txAbrt := false, abrtSrc := 0 }).drew 1).ret x (.word v)))

/-! ## Writes -/

/-- IC_CON, IC_TAR and IC_SAR: stored while the unit is disabled, whatever the fields ask for; while it is enabled the write is
`F_CFG_WHILE_ENABLED`, and a value outside the pattern is `F_UNADMITTED` in either case (40_register_access.md R154; 60_exceptions.md
R314; decisions D5, D6). -/
def Obligations.ConfigurationWritesNeedADisabledUnit : Prop :=
  ∀ (s : State) (u : UnitId) (v : Word),
    ((s.unit u).icEnable.getLsbD 0 = false →
      (v >>> 10 = 0 → exec (.writeIcCon u v) s = .next (s.setUnit u { s.unit u with icCon := v }).finish ∧
        exec (.writeIcSar u v) s = .next (s.setUnit u { s.unit u with icSar := v }).finish) ∧
      (v >>> 12 = 0 → exec (.writeIcTar u v) s = .next (s.setUnit u { s.unit u with icTar := v }).finish)) ∧
    (s.fault = none → (s.unit u).icEnable.getLsbD 0 = true →
      (v >>> 10 = 0 → exec (.writeIcCon u v) s = .next (s.setFault (.cfgWhileEnabled u (.icCon u))) ∧
        exec (.writeIcSar u v) s = .next (s.setFault (.cfgWhileEnabled u (.icSar u)))) ∧
      (v >>> 12 = 0 → exec (.writeIcTar u v) s = .next (s.setFault (.cfgWhileEnabled u (.icTar u))))) ∧
    (s.fault = none →
      (v >>> 10 ≠ 0 → exec (.writeIcCon u v) s = .next (s.setFault (.unadmitted (Reg.icCon u).addr)) ∧
        exec (.writeIcSar u v) s = .next (s.setFault (.unadmitted (Reg.icSar u).addr))) ∧
      (v >>> 12 ≠ 0 → exec (.writeIcTar u v) s = .next (s.setFault (.unadmitted (Reg.icTar u).addr))))

/-- PAD, CTRL, GPIO_OUT and GPIO_OE store what is written, in any state; a reserved bit or a non-zero override is
`F_UNADMITTED` (40_register_access.md R155; decision D23). -/
def Obligations.PinAndOutputWritesStore : Prop :=
  ∀ (s : State) (n : Pin) (v : Word),
    (v >>> 9 = 0 → exec (.writePad n v) s = .next (s.setPad n v).finish) ∧
    (v >>> 5 = 0 → exec (.writeCtrl n v) s = .next (s.setCtrl n v).finish) ∧
    (v >>> 30 = 0 → exec (.writeGpioOut v) s = .next (s.setOut v).finish ∧
      exec (.writeGpioOe v) s = .next (s.setOe v).finish) ∧
    (s.fault = none →
      (v >>> 9 ≠ 0 → exec (.writePad n v) s = .next (s.setFault (.unadmitted (Reg.pad n).addr))) ∧
      (v >>> 5 ≠ 0 → exec (.writeCtrl n v) s = .next (s.setFault (.unadmitted (Reg.ctrl n).addr))) ∧
      (v >>> 30 ≠ 0 → exec (.writeGpioOut v) s = .next (s.setFault (.unadmitted Reg.gpioOut.addr)) ∧
        exec (.writeGpioOe v) s = .next (s.setFault (.unadmitted Reg.gpioOe.addr))))

/-- The set and clear registers of the digital outputs (40_register_access.md R165): a pin whose bit is 1 is set or cleared, every
other pin keeps its level and its output enable, and a bit at or above NUM_GPIO is `F_UNADMITTED`. -/
def Obligations.SetAndClearChangeTheNamedPins : Prop :=
  ∀ (s : State) (v : Word),
    (v >>> 30 = 0 →
      exec (.writeGpioOutSet v) s = .next (s.setOut (s.sioOut ||| v)).finish ∧
      exec (.writeGpioOutClr v) s = .next (s.setOut (s.sioOut &&& ~~~v)).finish ∧
      exec (.writeGpioOeSet v) s = .next (s.setOe (s.sioOe ||| v)).finish ∧
      exec (.writeGpioOeClr v) s = .next (s.setOe (s.sioOe &&& ~~~v)).finish) ∧
    (s.fault = none → v >>> 30 ≠ 0 →
      exec (.writeGpioOutSet v) s = .next (s.setFault (.unadmitted Reg.gpioOutSet.addr)) ∧
      exec (.writeGpioOutClr v) s = .next (s.setFault (.unadmitted Reg.gpioOutClr.addr)) ∧
      exec (.writeGpioOeSet v) s = .next (s.setFault (.unadmitted Reg.gpioOeSet.addr)) ∧
      exec (.writeGpioOeClr v) s = .next (s.setFault (.unadmitted Reg.gpioOeClr.addr)))

/-- A command word is pushed whole (40_register_access.md R156; 30_encoding.md R115): CW and CR on an idle controller, TD on a target
with room, which may hold earlier bytes. -/
def Obligations.CommandWordsArePushed : Prop :=
  ∀ (s : State) (u : UnitId) (b : Byte), (s.unit u).icEnable.getLsbD 0 = true →
    ((s.unit u).role = .controller → (s.unit u).txAbrt = false → (s.unit u).txf = [] → (∀ t, s.phase ≠ .readPending u t) →
      exec (.writeIcDataCmdCw u b) s = .next (s.setUnit u { s.unit u with txf := [⟨b, false, true, false⟩] }).finish ∧
      exec (.writeIcDataCmdCr u b) s = .next (s.setUnit u { s.unit u with txf := [⟨b, true, true, false⟩] }).finish) ∧
    ((s.unit u).role = .target → (s.unit u).txf.length < 16 →
      exec (.writeIcDataCmdTd u b) s =
        .next (s.setUnit u { s.unit u with txf := (s.unit u).txf ++ [⟨b, false, false, false⟩] }).finish)

/-- The checks of a write of IC_DATA_CMD, for every value, in their order: the first that fails gives the reason
(40_register_access.md R156; 60_exceptions.md R314; decisions D5, D8, D14, D15, D16, D48). A reserved bit 31:12 is refused before
them all (20_memory.md R86; log 33). -/
def Obligations.CommandChecksComeInOrder : Prop :=
  ∀ (s : State) (u : UnitId) (x : Option Var) (e : Expr) (v : Word), s.fault = none → evalWord s.vars e = .ok v →
    (v >>> 12 ≠ 0 → exec (.write (.icDataCmd u) (.value e) x) s = .next (s.setFault (.unadmitted (Reg.icDataCmd u).addr))) ∧
    (v >>> 12 = 0 → (s.unit u).icEnable.getLsbD 0 = false →
      exec (.write (.icDataCmd u) (.value e) x) s = .next (s.setFault (.unitDisabled u))) ∧
    (v >>> 12 = 0 → (s.unit u).icEnable.getLsbD 0 = true →
      (¬ ((s.unit u).role = .controller ∧ (v >>> 8 = 2 ∨ v >>> 8 = 3)) → ¬ ((s.unit u).role = .target ∧ v >>> 8 = 0) →
        exec (.write (.icDataCmd u) (.value e) x) s = .next (s.setFault (.unadmittedCmd u v))) ∧
      ((s.unit u).role = .controller → (v >>> 8 = 2 ∨ v >>> 8 = 3) →
        ((s.unit u).txAbrt = true →
          exec (.write (.icDataCmd u) (.value e) x) s = .next (s.setFault (.writeWhileAborted u))) ∧
        ((s.unit u).txAbrt = false → ((s.unit u).txf ≠ [] ∨ ∃ t, s.phase = .readPending u t) →
          exec (.write (.icDataCmd u) (.value e) x) s = .next (s.setFault (.overlappedTransaction u)))) ∧
      ((s.unit u).role = .target → v >>> 8 = 0 → (s.unit u).txf.length = 16 →
        exec (.write (.icDataCmd u) (.value e) x) s = .next (s.setFault (.txOverflow u))))

/-- The enabling write latches the role of a legal configuration with ready pins, and changes nothing else of the unit
(40_register_access.md R160; 10_state.md R47). -/
def Obligations.EnableLatchesTheRole : Prop :=
  ∀ (s : State) (u : UnitId), (s.unit u).icEnable.getLsbD 0 = false → (s.unit u).icCon &&& 0x398 = 0 →
    s.pinRole (s.board.sdaPin u) = .i2c u .sda → s.pinRole (s.board.sclPin u) = .i2c u .scl →
    ((s.unit u).icCon.getLsbD 0 = true → (s.unit u).icCon.getLsbD 6 = true → (s.unit u).icTar.getLsbD 11 = false →
      (s.unit u).icTar &&& 0x380 = 0 → 0x08 ≤ (s.unit u).icTar &&& 0x7F → (s.unit u).icTar &&& 0x7F ≤ 0x77 →
      exec (.writeIcEnable u 1) s = .next (s.setUnit u { s.unit u with role := .controller, icEnable := 1 }).finish) ∧
    ((s.unit u).icCon.getLsbD 0 = false → (s.unit u).icCon.getLsbD 6 = false →
      (s.unit u).icSar &&& 0x380 = 0 → 0x08 ≤ (s.unit u).icSar &&& 0x7F → (s.unit u).icSar &&& 0x7F ≤ 0x77 →
      exec (.writeIcEnable u 1) s = .next (s.setUnit u { s.unit u with role := .target, icEnable := 1 }).finish)

/-- The checks of the enabling write: an illegal configuration first, then the pins (40_register_access.md R160; decisions D17,
D24). -/
def Obligations.EnableChecksComeInOrder : Prop :=
  ∀ (s : State) (u : UnitId), s.fault = none → (s.unit u).icEnable.getLsbD 0 = false →
    let con := (s.unit u).icCon
    let a := if con.getLsbD 0 then (s.unit u).icTar else (s.unit u).icSar
    let legal := con.getLsbD 0 = con.getLsbD 6 ∧ con &&& 0x398 = 0 ∧ a &&& 0x380 = 0 ∧ 0x08 ≤ a &&& 0x7F ∧ a &&& 0x7F ≤ 0x77 ∧
      (con.getLsbD 0 = true → a.getLsbD 11 = false)
    (¬ legal → exec (.writeIcEnable u 1) s = .next (s.setFault (.illegalConfig u))) ∧
    (legal → ¬ (s.pinRole (s.board.sdaPin u) = .i2c u .sda ∧ s.pinRole (s.board.sclPin u) = .i2c u .scl) →
      exec (.writeIcEnable u 1) s = .next (s.setFault (.pinNotReady u)))

/-- The disabling write flushes both FIFOs, draws the two flags and the abort reason and drops the role; with work pending it is
`F_DISABLE_ACTIVE` (40_register_access.md R160; decision D18). -/
def Obligations.DisableFlushesAnIdleUnit : Prop :=
  ∀ (s : State) (u : UnitId), (s.unit u).icEnable.getLsbD 0 = true →
    ((s.unit u).txf = [] → (∀ c t, s.phase = .readPending c t → u ≠ c ∧ u ≠ t) → ∃ (ta rq : Bool) (reason : Word),
      exec (.writeIcEnable u 0) s = .next ((s.setUnit u
        { s.unit u with txf := [], rxf := [], txAbrt := ta, rdReq := rq, abrtSrc := reason, role := .none, icEnable := 0 }).drew
          3).finish) ∧
    (s.fault = none → ((s.unit u).txf ≠ [] ∨ ∃ c t, s.phase = .readPending c t ∧ (u = c ∨ u = t)) →
      exec (.writeIcEnable u 0) s = .next (s.setFault (.disableActive u)))

/-- Writing ENABLE the value it holds changes nothing, in any state of the unit, and a value with ABORT or another bit set is
`F_UNADMITTED` (40_register_access.md R160; decision D39). -/
def Obligations.EnableWriteWithoutAChange : Prop :=
  ∀ (s : State) (u : UnitId) (v : Word),
    (v >>> 1 = 0 → (s.unit u).icEnable.getLsbD 0 = v.getLsbD 0 → exec (.writeIcEnable u v) s = .next s.finish) ∧
    (s.fault = none → v >>> 1 ≠ 0 → exec (.writeIcEnable u v) s = .next (s.setFault (.unadmitted (Reg.icEnable u).addr)))

/-! ## The access layer -/

/-- `read <REG>` is the 32-bit read at the register's address and nothing more (40_register_access.md R150): it is that access's
instruction, or `F_UNADMITTED` for a register that no row admits for R. It completes for every readable register but an empty or
disabled IC_DATA_CMD, with the CPU side otherwise unchanged. -/
def Obligations.ReadIsOneAccess : Prop :=
  ∀ (s : State) (x : Option Var) (r : Reg),
    (r.readable = true → ∃ i, decode (.read x r.addr 4) = .ok i ∧ exec (.read x r) s = exec i s) ∧
    (r.readable = false → s.fault = none → decode (.read x r.addr 4) = .error (.unadmitted r.addr) ∧
      exec (.read x r) s = .next (s.setFault (.unadmitted r.addr))) ∧
    (r.readable = true → (∀ u, r = .icDataCmd u → (s.unit u).icEnable.getLsbD 0 = true ∧ (s.unit u).rxf ≠ []) →
      ∃ (v : Word) (m : State), exec (.read x r) s = .next (m.ret x (.word v)) ∧ SameCpu s m)

/-- `write <REG>, v` is the 32-bit write at the register's address, and `write <REG>, {F = e, …}` is the write of the assembled
value (40_register_access.md R151), where a field assigned a value too wide for it is the model's free value (log 18). With
`x := …` the same access is made, and what `x` then holds is a free value (log 35). -/
def Obligations.WriteIsOneAccess : Prop :=
  (∀ (s : State) (r : Reg) (e : Expr) (v : Word) (i : Instr), evalWord s.vars e = .ok v → decode (.write r.addr 4 v) = .ok i →
    exec (.write r (.value e)) s = exec i s ∧ ∀ x : Option Var,
      (∀ m : State, m.pc = s.pc → m.fault = s.fault → exec i s = .next m.finish →
        exec (.write r (.value e) x) s = .next (m.retNone x)) ∧
      (∀ f, s.fault = none → exec i s = .next (s.setFault f) → exec (.write r (.value e) x) s = .next (s.setFault f))) ∧
  (∀ (s : State) (x : Option Var) (r : Reg) (e : Expr) (v : Word), s.fault = none → evalWord s.vars e = .ok v →
    decode (.write r.addr 4 v) = .error (.unadmitted r.addr) →
    exec (.write r (.value e) x) s = .next (s.setFault (.unadmitted r.addr))) ∧
  (∀ (s : State) (x : Option Var) (r : Reg) (fs : List (Field × Expr)) (ws : List (Field × Word)),
    r.writable = true → fieldsWf r fs = true →
    evalFields s.vars fs = .ok ws →
    exec (.write r (.fields fs) x) s = exec (.write r (.value (.lit (assemble ws))) x) s) ∧
  (∀ (s : State) (x : Option Var) (n : Pin) (e : Expr) (v : Word), evalWord s.vars e = .ok v → v >>> 9 = 0 →
    exec (.write (.pad n) (.value e) x) s = .next ((s.setPad n v).retNone x))

/-- `modify <REG>, {F = e, …}` (40_register_access.md R152): step 1 reads the register and keeps the value, step 2 writes that value
with the named fields replaced; `F_UNADMITTED` for a register outside the rule's list. A whole modify of a pad, for any of its fields,
replaces them and leaves everything but the local value and the program counter as before (its first premise is an invariant of the
machine). The model's own: `F_UNADMITTED` comes before an unwritten operand (log 36), a field assigned a value too wide for it holds
a free value (log 18), and what `x` of `x := modify …` then holds is one (log 35). -/
def Obligations.ModifyReadsThenWrites : Prop :=
  (∀ (s : State) (x : Option Var) (r : Reg) (fs : List (Field × Expr)),
    (Reg.modifiable r = true → fieldsWf r fs = true → ∀ ws, evalFields s.vars fs = .ok ws →
      (s.pc.step = 0 → ∃ v, readReg r s = .ok (v, s) ∧ exec (.modify r fs x) s = .next (s.setLatch v).advance) ∧
      (s.pc.step = 1 → exec (.modify r fs x) s = exec (.write r (.value (.lit (insertFields ws s.latch))) x) s)) ∧
    (Reg.modifiable r = false → s.fault = none → exec (.modify r fs x) s = .next (s.setFault (.unadmitted r.addr)))) ∧
  (∀ (s : State) (x : Option Var) (n : Pin) (fs : List (Field × Expr)) (ws : List (Field × Word)),
    s.pad n >>> 9 = 0 → s.pc.step = 0 →
    fieldsWf (.pad n) fs = true → evalFields s.vars fs = .ok ws →
    execTimes 2 (.modify (.pad n) fs x) s =
      .next (((s.setPad n (insertFields ws (s.pad n))).setLatch (s.pad n)).retNone x))

/-- What replacing a field does to each bit: inside the field the operand's bit, outside it the bit as it was; an unnamed field of
`write` is therefore 0 (40_register_access.md R151, R152; decision D22). -/
def Obligations.FieldsKeepTheOtherBits : Prop :=
  ∀ (f : Field) (e w : Word) (i : Nat), e.toNat < 2 ^ fieldWidth f → i < 32 →
    (insertField f e w).getLsbD i =
      (if (fieldBits f).2 ≤ i ∧ i ≤ (fieldBits f).1 then e.getLsbD (i - (fieldBits f).2) else w.getLsbD i)

/-- One poll of a busy-wait (42_busy_wait.md R200, R201): with the condition true the wait is over; with it false nothing changes, `pc`
included (only the count of draws, the model's own, moves). A wait on a register with a read side effect, or not admitted for R,
is `F_UNADMITTED` and pops or clears nothing (decision D38). The model's own: that fault comes before an unwritten mask or value
(log 36), a mask or value that is no word is a free word (log 16), and `x` of `x := waitForCondition …` then holds a free value (log 35). -/
def Obligations.PollChangesNothingUntilTrue : Prop :=
  ∀ (s : State) (x : Option Var) (r : Reg) (em ev : Expr),
    (Reg.pollable r = true → ∀ mask value, evalWord s.vars em = .ok mask → evalWord s.vars ev = .ok value →
      ∃ (v : Word) (m : State), readReg r s = .ok (v, m) ∧ SameMachine s m ∧
        (v &&& mask = value → exec (.waitForCondition r em ev x) s = .next (m.retNone x)) ∧
        (v &&& mask ≠ value → exec (.waitForCondition r em ev x) s = .next m)) ∧
    (s.fault = none → ((∃ u, r = .icDataCmd u ∨ r = .icClrRdReq u ∨ r = .icClrTxAbrt u) ∨ r.readable = false) →
      exec (.waitForCondition r em ev x) s = .next (s.setFault (.unadmitted r.addr)))

/-! ## Pins -/

/-- When a pin has each of its roles (41_pin_configuration.md R170, R171; decision D24), and when the bus is up for a controller: the
board wires the pairs, both its pins carry their signals, and each line is pulled up, by the board or by the pad of a pin that
carries it (45_i2c_bus_engine.md R271). -/
def Obligations.PinRolesAndBusUpExactlyWhen : Prop :=
  (∀ (s : State) (n : Pin),
    (s.pinRole n = .isolated ↔ (s.pad n).getLsbD 8 = true) ∧
    (∀ (u : UnitId) (sig : Signal), s.pinRole n = .i2c u sig ↔
      (s.pad n).getLsbD 8 = false ∧ s.ctrl n &&& 0x1F = 3 ∧ (s.pad n).getLsbD 6 = true ∧ (s.pad n).getLsbD 7 = false ∧
      u.val = (n.val >>> 1) &&& 1 ∧ (sig = .sda ↔ n.val % 2 = 0)) ∧
    (s.pinRole n = .digitalOutput ↔
      (s.pad n).getLsbD 8 = false ∧ s.ctrl n &&& 0x1F = 5 ∧ (s.pad n).getLsbD 7 = false ∧ s.sioOe.getLsbD n.val = true) ∧
    (s.pinRole n = .digitalInput ↔
      (s.pad n).getLsbD 8 = false ∧ s.ctrl n &&& 0x1F = 5 ∧ (s.pad n).getLsbD 6 = true ∧ s.sioOe.getLsbD n.val = false) ∧
    (s.pinRole n = .unconfigured ↔
      (s.pad n).getLsbD 8 = false ∧
      ¬ (s.ctrl n &&& 0x1F = 3 ∧ (s.pad n).getLsbD 6 = true ∧ (s.pad n).getLsbD 7 = false) ∧
      ¬ (s.ctrl n &&& 0x1F = 5 ∧ (s.pad n).getLsbD 7 = false ∧ s.sioOe.getLsbD n.val = true) ∧
      ¬ (s.ctrl n &&& 0x1F = 5 ∧ (s.pad n).getLsbD 6 = true ∧ s.sioOe.getLsbD n.val = false))) ∧
  (∀ (s : State) (c : UnitId), s.busUp c = true ↔
    s.board.wired = true ∧ s.pinRole (s.board.sdaPin c) = .i2c c .sda ∧ s.pinRole (s.board.sclPin c) = .i2c c .scl ∧
    (s.board.externalPullups = true ∨
      ∃ u, s.pinRole (s.board.sdaPin u) = .i2c u .sda ∧ (s.pad (s.board.sdaPin u)).getLsbD 3 = true) ∧
    (s.board.externalPullups = true ∨
      ∃ u, s.pinRole (s.board.sclPin u) = .i2c u .scl ∧ (s.pad (s.board.sclPin u)).getLsbD 3 = true))

/-- `configureDigitalOutputPin(n)` (41_pin_configuration.md R173), its six accesses with no step between them: the pad keeps DRIVE
alone, the pin is routed to the digital I/O block and its output is enabled; its level and every other pin are as before. The
premise on the pad is an invariant of the machine. What a given `x` then holds is the model's (log 35). -/
def Obligations.ConfigureDigitalOutputPinResult : Prop :=
  ∀ (s : State) (x : Option Var) (e : Expr) (n : Pin), s.pad n >>> 9 = 0 → s.pc.step = 0 →
    evalWord s.vars e = .ok (BitVec.ofNat 32 n.val) →
    exec (.configureDigitalOutputPin e x) s = .next (s.setLatch (s.pad n)).advance ∧
    ∃ t, execTimes 6 (.configureDigitalOutputPin e x) s = .next t ∧ t.pinRole n = .digitalOutput ∧
      t = ((((s.setPad n ((s.pad n &&& 0x30) ||| 0x02)).setCtrl n 5).setOe (s.sioOe ||| 1#32 <<< n.val)).setLatch
        ((s.pad n &&& 0x130) ||| 0x02)).retNone x

/-- `configureSignalPin(n, internalPullUp)` (41_pin_configuration.md R174, R175): isolation is cleared and the input enabled for both
values of the argument, OD, SLEWFAST and DRIVE are as before, and the pin carries its I2C signal if its output is not disabled.
What a given `x` then holds is the model's (log 35). -/
def Obligations.ConfigureSignalPinResult : Prop :=
  ∀ (s : State) (x : Option Var) (e ep : Expr) (n : Pin) (up : Bool), s.pad n >>> 9 = 0 → s.pc.step = 0 →
    evalWord s.vars e = .ok (BitVec.ofNat 32 n.val) → evalBool s.vars ep = .ok up →
    exec (.configureSignalPin e ep x) s = .next (s.setLatch (s.pad n)).advance ∧
    ∃ t, execTimes 5 (.configureSignalPin e ep x) s = .next t ∧
      (t.pad n).getLsbD 8 = false ∧ (t.pad n).getLsbD 6 = true ∧ (t.pad n).getLsbD 3 = up ∧
      t.pinRole n = (if (s.pad n).getLsbD 7 then .unconfigured else .i2c (i2cUnit n.val) (i2cSignal n.val)) ∧
      t = (((s.setPad n ((s.pad n &&& 0xB1#32) ||| 0x42#32 ||| bit up <<< 3)).setCtrl n 3).setLatch
        ((s.pad n &&& 0x1B1#32) ||| 0x42#32 ||| bit up <<< 3)).retNone x

/-- The argument checks: a pin index of NUM_GPIO or more, a bus address of 0x80 or more, is `F_OP_ARG` with no access made
(41_pin_configuration.md R173, R174; 43_i2c_controller.md R211; 44_i2c_target.md R241; 60_exceptions.md R314; decision D25). The
rules make the check before the first access; that it is made again at each later step of the operation is the model's (log 23). -/
def Obligations.ArgumentChecksComeFirst : Prop :=
  ∀ (s : State) (x : Option Var) (e ep : Expr) (w : Word) (up : Bool),
    s.fault = none → evalWord s.vars e = .ok w → evalBool s.vars ep = .ok up →
    (30 ≤ w.toNat → exec (.configureDigitalOutputPin e x) s = .next (s.setFault .opArg) ∧
      exec (.configureSignalPin e ep x) s = .next (s.setFault .opArg)) ∧
    (0x80 ≤ w.toNat → exec (.configureAsController e x) s = .next (s.setFault .opArg) ∧
      exec (.configureAsTarget e x) s = .next (s.setFault .opArg))

/-! ## The controller -/

/-- `configureAsController(a)` (43_i2c_controller.md R211), its seven accesses with no step between them: whatever the unit was, it
ends enabled in the controller role with the target address `a`, `requested` and the other unit untouched; a unit that was
enabled is flushed on the way. The premises on IC_CON and IC_ENABLE above the pattern are invariants of the machine.
What a given `x` then holds is the model's (log 35). -/
def Obligations.ConfigureAsControllerResult : Prop :=
  ∀ (s : State) (x : Option Var) (e : Expr) (a : Word), evalWord s.vars e = .ok a → 0x08 ≤ a → a ≤ 0x77 → s.pc.step = 0 →
    (s.unit s.board.ctrlUnit).icEnable >>> 1 = 0 → (s.unit s.board.ctrlUnit).icCon >>> 10 = 0 →
    (s.unit s.board.ctrlUnit).icCon &&& 0x398 = 0 → (s.unit s.board.ctrlUnit).txf = [] →
    (∀ c t, s.phase = .readPending c t → s.board.ctrlUnit ≠ c ∧ s.board.ctrlUnit ≠ t) →
    s.pinsReady s.board.ctrlUnit = true →
    exec (.configureAsController e x) s = .next (s.setLatch (s.unit s.board.ctrlUnit).icEnable).advance ∧
    ∃ t, execTimes 7 (.configureAsController e x) s = .next t ∧
      (t.unit s.board.ctrlUnit).role = .controller ∧ (t.unit s.board.ctrlUnit).icEnable = 1 ∧
      (t.unit s.board.ctrlUnit).icCon = 0x65 ∧ (t.unit s.board.ctrlUnit).icTar = a ∧
      (t.unit s.board.ctrlUnit).icSar = (s.unit s.board.ctrlUnit).icSar ∧ (t.unit s.board.ctrlUnit).txf = [] ∧
      ((s.unit s.board.ctrlUnit).icEnable = 1 → (t.unit s.board.ctrlUnit).rxf = []) ∧
      ((s.unit s.board.ctrlUnit).icEnable = 0 → (t.unit s.board.ctrlUnit).rxf = (s.unit s.board.ctrlUnit).rxf ∧
        (t.unit s.board.ctrlUnit).txAbrt = (s.unit s.board.ctrlUnit).txAbrt ∧
        (t.unit s.board.ctrlUnit).rdReq = (s.unit s.board.ctrlUnit).rdReq ∧
        (t.unit s.board.ctrlUnit).abrtSrc = (s.unit s.board.ctrlUnit).abrtSrc) ∧
      t.unit s.board.tgtUnit = s.unit s.board.tgtUnit ∧
      ∃ k, t = ({ s with units := t.units, latch := t.latch, drawCount := k } : State).retNone x

/-- `writeByte(byte)`, access by access (43_i2c_controller.md R212): it waits for TFNF, pushes the CW command (or takes the fault of
that write), returns true if TX_ABRT is clear at the one check, and otherwise reads the reason, clears the abort and returns
false. A byte is 8 bits. -/
def Obligations.WriteByteRunsItsSteps : Prop :=
  ∀ (s : State) (x : Option Var) (e : Expr) (b : Byte), evalWord s.vars e = .ok (b.zeroExtend 32) →
    (s.pc.step = 0 →
      ((s.unit s.board.ctrlUnit).txf.length < 16 → exec (.writeByte x e) s = .next (s.drew 1).advance) ∧
      (16 ≤ (s.unit s.board.ctrlUnit).txf.length → exec (.writeByte x e) s = .next (s.drew 1))) ∧
    (s.pc.step = 1 →
      ((s.unit s.board.ctrlUnit).icEnable.getLsbD 0 = true → (s.unit s.board.ctrlUnit).role = .controller →
        (s.unit s.board.ctrlUnit).txAbrt = false → (s.unit s.board.ctrlUnit).txf = [] →
        (∀ t, s.phase ≠ .readPending s.board.ctrlUnit t) →
        exec (.writeByte x e) s = .next (s.setUnit s.board.ctrlUnit
          { s.unit s.board.ctrlUnit with txf := [⟨b, false, true, false⟩] }).advance) ∧
      (∀ f, s.fault = none → exec (.writeIcDataCmdCw s.board.ctrlUnit b) s = .next (s.setFault f) →
        exec (.writeByte x e) s = .next (s.setFault f))) ∧
    (s.pc.step = 2 →
      ((s.unit s.board.ctrlUnit).txAbrt = false → exec (.writeByte x e) s = .next ((s.drew 1).ret x (.bool true))) ∧
      ((s.unit s.board.ctrlUnit).txAbrt = true → exec (.writeByte x e) s = .next (s.drew 1).advance)) ∧
    (s.pc.step = 3 → exec (.writeByte x e) s = .next (s.drew 1).advance) ∧
    (s.pc.step = 4 → exec (.writeByte x e) s = .next (((s.setUnit s.board.ctrlUnit
      { s.unit s.board.ctrlUnit with txAbrt := false, abrtSrc := 0 }).drew 1).ret x (.bool false)))

/-- `requestByteFromMemory()`, access by access (43_i2c_controller.md R214): it waits for TFNF, pushes the CR command and sets
`requested` in the same step (or takes the fault of that write); it looks at no abort. RESTART = 0 and DAT = 0 are decision
D14. What a given `x` then holds is the model's (log 35). -/
def Obligations.RequestRunsItsSteps : Prop :=
  ∀ (s : State) (x : Option Var),
    (s.pc.step = 0 →
      ((s.unit s.board.ctrlUnit).txf.length < 16 → exec (.requestByteFromMemory x) s = .next (s.drew 1).advance) ∧
      (16 ≤ (s.unit s.board.ctrlUnit).txf.length → exec (.requestByteFromMemory x) s = .next (s.drew 1))) ∧
    (s.pc.step = 1 →
      ((s.unit s.board.ctrlUnit).icEnable.getLsbD 0 = true → (s.unit s.board.ctrlUnit).role = .controller →
        (s.unit s.board.ctrlUnit).txAbrt = false → (s.unit s.board.ctrlUnit).txf = [] →
        (∀ t, s.phase ≠ .readPending s.board.ctrlUnit t) →
        exec (.requestByteFromMemory x) s = .next ((s.setUnit s.board.ctrlUnit
          { s.unit s.board.ctrlUnit with txf := [⟨0, true, true, false⟩] }).setRequested.retNone x)) ∧
      (∀ f, s.fault = none → exec (.writeIcDataCmdCr s.board.ctrlUnit 0) s = .next (s.setFault f) →
        exec (.requestByteFromMemory x) s = .next (s.setFault f)))

/-- `receiveRequestedBytesFromMemory()`, step by step (43_i2c_controller.md R215): without a request the result is none and no
register is touched; otherwise it waits for RFNE and returns the oldest received byte; `requested` is not reset. -/
def Obligations.ReceiveRequestedRunsItsSteps : Prop :=
  ∀ (s : State) (x : Option Var),
    (s.pc.step = 0 →
      (s.requested = false → exec (.receiveRequestedBytesFromMemory x) s = .next (s.ret x (.opt none))) ∧
      (s.requested = true → exec (.receiveRequestedBytesFromMemory x) s = .next s.advance)) ∧
    (s.pc.step = 1 →
      ((s.unit s.board.ctrlUnit).rxf ≠ [] → exec (.receiveRequestedBytesFromMemory x) s = .next (s.drew 1).advance) ∧
      ((s.unit s.board.ctrlUnit).rxf = [] → exec (.receiveRequestedBytesFromMemory x) s = .next (s.drew 1))) ∧
    (s.pc.step = 2 →
      (∀ b rest, (s.unit s.board.ctrlUnit).icEnable.getLsbD 0 = true → (s.unit s.board.ctrlUnit).rxf = b :: rest →
        exec (.receiveRequestedBytesFromMemory x) s =
          .next (((s.setUnit s.board.ctrlUnit { s.unit s.board.ctrlUnit with rxf := rest }).drew 1).ret x
            (.opt (some (b.zeroExtend 32))))) ∧
      ((s.unit s.board.ctrlUnit).icEnable.getLsbD 0 = false → s.fault = none →
        exec (.receiveRequestedBytesFromMemory x) s = .next (s.setFault (.unitDisabled s.board.ctrlUnit))))

/-! ## The target -/

/-- `configureAsTarget(a)` (44_i2c_target.md R241), its seven accesses with no step between them: the unit ends enabled in the target
role with its own address `a`, which the driver object keeps; `memoryValue` and the other unit are untouched.
What a given `x` then holds is the model's (log 35). -/
def Obligations.ConfigureAsTargetResult : Prop :=
  ∀ (s : State) (x : Option Var) (e : Expr) (a : Word), evalWord s.vars e = .ok a → 0x08 ≤ a → a ≤ 0x77 → s.pc.step = 0 →
    (s.unit s.board.tgtUnit).icEnable >>> 1 = 0 → (s.unit s.board.tgtUnit).icCon >>> 10 = 0 →
    (s.unit s.board.tgtUnit).icCon &&& 0x398 = 0 → (s.unit s.board.tgtUnit).txf = [] →
    (∀ c t, s.phase = .readPending c t → s.board.tgtUnit ≠ c ∧ s.board.tgtUnit ≠ t) →
    s.pinsReady s.board.tgtUnit = true →
    exec (.configureAsTarget e x) s = .next (s.setLatch (s.unit s.board.tgtUnit).icEnable).advance ∧
    ∃ t, execTimes 7 (.configureAsTarget e x) s = .next t ∧
      (t.unit s.board.tgtUnit).role = .target ∧ (t.unit s.board.tgtUnit).icEnable = 1 ∧
      (t.unit s.board.tgtUnit).icCon = 0x24 ∧ (t.unit s.board.tgtUnit).icSar = a ∧
      (t.unit s.board.tgtUnit).icTar = (s.unit s.board.tgtUnit).icTar ∧ (t.unit s.board.tgtUnit).txf = [] ∧
      ((s.unit s.board.tgtUnit).icEnable = 1 → (t.unit s.board.tgtUnit).rxf = []) ∧
      ((s.unit s.board.tgtUnit).icEnable = 0 → (t.unit s.board.tgtUnit).rxf = (s.unit s.board.tgtUnit).rxf ∧
        (t.unit s.board.tgtUnit).txAbrt = (s.unit s.board.tgtUnit).txAbrt ∧
        (t.unit s.board.tgtUnit).rdReq = (s.unit s.board.tgtUnit).rdReq ∧
        (t.unit s.board.tgtUnit).abrtSrc = (s.unit s.board.tgtUnit).abrtSrc) ∧
      t.unit s.board.ctrlUnit = s.unit s.board.ctrlUnit ∧ t.targetAddress = a.truncate 7 ∧
      ∃ k, t = ({ s with
        units := t.units, targetAddress := t.targetAddress, latch := t.latch, drawCount := k } : State).retNone x

/-- `receiveBytesToMemory()`, access by access (44_i2c_target.md R242): it waits for RFNE, then takes the oldest received byte and
stores its increment modulo 256 in the same step. The poll excludes the faults of that read: a legal unit that shows RFNE is enabled
and holds a byte, and no joint step takes one (`ProtocolStateStaysLegal`, `JointStepFootprint`).
What a given `x` then holds is the model's (log 35). -/
def Obligations.ReceiveStoresTheIncrement : Prop :=
  ∀ (s : State) (x : Option Var),
    (s.pc.step = 0 →
      ((s.unit s.board.tgtUnit).rxf ≠ [] → exec (.receiveBytesToMemory x) s = .next (s.drew 1).advance) ∧
      ((s.unit s.board.tgtUnit).rxf = [] → exec (.receiveBytesToMemory x) s = .next (s.drew 1))) ∧
    (s.pc.step = 1 → ∀ b rest, (s.unit s.board.tgtUnit).icEnable.getLsbD 0 = true →
      (s.unit s.board.tgtUnit).rxf = b :: rest →
      ∃ d : Byte, d.toNat = (b.toNat + 1) % 256 ∧ exec (.receiveBytesToMemory x) s =
        .next ((((s.setUnit s.board.tgtUnit { s.unit s.board.tgtUnit with rxf := rest }).drew 1).setMemoryValue d).retNone x)) ∧
    (ProtocolInv s → s.fault = none → s.pc.step ≤ 1 → (s.unit s.board.tgtUnit).rxf ≠ [] →
      ∃ t, exec (.receiveBytesToMemory x) s = .next t ∧ t.fault = none)

/-- `serveBytesFromMemory()`, access by access (44_i2c_target.md R243): it waits for RD_REQ, clears it, and pushes `memoryValue`, or 0
if nothing is stored, as target data (or takes the fault of that write); `memoryValue` is not changed.
What a given `x` then holds is the model's (log 35). -/
def Obligations.ServePushesTheStoredByte : Prop :=
  ∀ (s : State) (x : Option Var),
    (s.pc.step = 0 →
      ((s.unit s.board.tgtUnit).rdReq = true → exec (.serveBytesFromMemory x) s = .next (s.drew 1).advance) ∧
      ((s.unit s.board.tgtUnit).rdReq = false → exec (.serveBytesFromMemory x) s = .next (s.drew 1))) ∧
    (s.pc.step = 1 → exec (.serveBytesFromMemory x) s =
      .next ((s.setUnit s.board.tgtUnit { s.unit s.board.tgtUnit with rdReq := false }).drew 1).advance) ∧
    (s.pc.step = 2 →
      ((s.unit s.board.tgtUnit).icEnable.getLsbD 0 = true → (s.unit s.board.tgtUnit).role = .target →
        (s.unit s.board.tgtUnit).txf.length < 16 →
        exec (.serveBytesFromMemory x) s = .next ((s.setUnit s.board.tgtUnit { s.unit s.board.tgtUnit with
          txf := (s.unit s.board.tgtUnit).txf ++ [⟨s.memoryValue.getD 0, false, false, false⟩] }).retNone x)) ∧
      (∀ f, s.fault = none →
        exec (.writeIcDataCmdTd s.board.tgtUnit (s.memoryValue.getD 0)) s = .next (s.setFault f) →
        exec (.serveBytesFromMemory x) s = .next (s.setFault f)) ∧
      (exec (.serveBytesFromMemory x) s = .next (s.setFault (.txOverflow s.board.tgtUnit)) → s.fault = none →
        (s.unit s.board.tgtUnit).txf.length = 16))

/-- Frame of the driver operations of one unit: whatever step of its expansion it is at, a controller operation leaves the target
unit, and a target operation the controller unit, as it was; neither touches a pin register, PHASE, the other driver object or a
caller variable but its own `x` (43_i2c_controller.md R210 to R215; 44_i2c_target.md R240 to R243). -/
def Obligations.OperationsTouchOnlyTheirUnit : Prop :=
  ∀ (i : Instr) (s t : State) (x : Option Var), exec i s = .next t →
    (((∃ e, i = .configureAsController e x) ∨ (∃ e, i = .writeByte x e) ∨ i = .requestByteFromMemory x ∨
      i = .receiveRequestedBytesFromMemory x) →
      t.unit s.board.tgtUnit = s.unit s.board.tgtUnit ∧ t.memoryValue = s.memoryValue ∧
      t.targetAddress = s.targetAddress ∧ (∀ y, x ≠ some y → lookupVar y t.vars = lookupVar y s.vars) ∧ t.pads = s.pads ∧
      t.ctrls = s.ctrls ∧ t.sioOut = s.sioOut ∧ t.sioOe = s.sioOe ∧
      t.phase = s.phase) ∧
    (((∃ e, i = .configureAsTarget e x) ∨ i = .receiveBytesToMemory x ∨ i = .serveBytesFromMemory x) →
      t.unit s.board.ctrlUnit = s.unit s.board.ctrlUnit ∧ t.requested = s.requested ∧
      (∀ y, x ≠ some y → lookupVar y t.vars = lookupVar y s.vars) ∧
      t.pads = s.pads ∧ t.ctrls = s.ctrls ∧ t.sioOut = s.sioOut ∧ t.sioOe = s.sioOe ∧ t.phase = s.phase)

/-! ## The bus -/

/-- BUS-WRITE(c) (45_i2c_bus_engine.md R272, R274, R275): with an acknowledging target the byte is delivered unchanged, or
`F_TARGET_RX_OVERFLOW` if there is no room; otherwise the command is flushed, TX_ABRT and bit 0 of the reason are set and the
other unit is not touched (decisions D12, D30). -/
def Obligations.BusWriteDeliversOrAborts : Prop :=
  ∀ (s : State) (c : UnitId) (e : Cmd) (rest : List Cmd), (s.unit c).icEnable.getLsbD 0 = true → (s.unit c).role = .controller →
    (s.unit c).txAbrt = false → (s.unit c).txf = e :: rest → s.phase = .idle → e.cmd = false → s.busUp c = true →
    let t := otherUnit c
    let acks := (s.unit t).icEnable.getLsbD 0 = true ∧ (s.unit t).role = .target ∧ s.pinsReady t = true ∧
      (s.unit t).icSar &&& 0x7F = (s.unit c).icTar &&& 0x7F
    (acks → (s.unit t).rxf.length < 16 → busTurn (.write c) s =
      .next ((s.setUnit c { s.unit c with txf := rest }).setUnit t { s.unit t with rxf := (s.unit t).rxf ++ [e.dat] })) ∧
    (acks → s.fault = none → (s.unit t).rxf.length = 16 →
      busTurn (.write c) s = .next (s.setFault (.targetRxOverflow t))) ∧
    (¬ acks → busTurn (.write c) s =
      .next (s.setUnit c { s.unit c with txAbrt := true, abrtSrc := (s.unit c).abrtSrc ||| 1, txf := [] }))

/-- BUS-READ-ADDR(c) (45_i2c_bus_engine.md R276): with an acknowledging target whose TX FIFO is empty, RD_REQ is raised and the read is
pending; a stale byte is `F_TARGET_TX_STALE`; without an acknowledge the command aborts as in R275 (decisions D12, D29). -/
def Obligations.BusReadAddressRaisesTheRequest : Prop :=
  ∀ (s : State) (c : UnitId) (e : Cmd) (rest : List Cmd), (s.unit c).icEnable.getLsbD 0 = true → (s.unit c).role = .controller →
    (s.unit c).txAbrt = false → (s.unit c).txf = e :: rest → s.phase = .idle → e.cmd = true → s.busUp c = true →
    let t := otherUnit c
    let acks := (s.unit t).icEnable.getLsbD 0 = true ∧ (s.unit t).role = .target ∧ s.pinsReady t = true ∧
      (s.unit t).icSar &&& 0x7F = (s.unit c).icTar &&& 0x7F
    (acks → (s.unit t).txf = [] → busTurn (.readAddr c) s =
      .next (((s.setUnit c { s.unit c with txf := rest }).setUnit t { s.unit t with rdReq := true }).setPhase
        (.readPending c t))) ∧
    (acks → s.fault = none → (s.unit t).txf ≠ [] → busTurn (.readAddr c) s = .next (s.setFault (.targetTxStale t))) ∧
    (¬ acks → busTurn (.readAddr c) s =
      .next (s.setUnit c { s.unit c with txAbrt := true, abrtSrc := (s.unit c).abrtSrc ||| 1, txf := [] }))

/-- BUS-READ-DATA(c, t) (45_i2c_bus_engine.md R277; 90_conflicts.md C7): the target's byte reaches the controller unchanged, RD_REQ as
it was; with no room it is `F_CTRL_RX_OVERFLOW` and the byte is not taken; with nothing to send the target stretches the clock:
no joint step is enabled, and that a turn of one changes nothing is the model's (log 9; decisions D30, D47). -/
def Obligations.BusReadDataDeliversTheReply : Prop :=
  ∀ (s : State) (c : UnitId), s.phase = .readPending c (otherUnit c) → s.busUp c = true → s.pinsReady (otherUnit c) = true →
    (∀ e rest, (s.unit (otherUnit c)).txf = e :: rest → (s.unit c).rxf.length < 16 → busTurn (.readData c) s =
      .next (((s.setUnit (otherUnit c) { s.unit (otherUnit c) with txf := rest }).setUnit c
        { s.unit c with rxf := (s.unit c).rxf ++ [e.dat] }).setPhase .idle)) ∧
    (s.fault = none → (s.unit (otherUnit c)).txf ≠ [] → (s.unit c).rxf.length = 16 →
      busTurn (.readData c) s = .next (s.setFault (.ctrlRxOverflow c))) ∧
    ((s.unit (otherUnit c)).txf = [] → ∀ b, busTurn b s = .next s)

/-- BUS-LOST(c) (45_i2c_bus_engine.md R279): when the bus is not up for a waiting command, or goes during a pending read, the
controller may abort with an unknown reason: bits 16:0 not all zero, bits 31:17 zero (decision D13). -/
def Obligations.LostBusAbortsWithSomeReason : Prop :=
  ∀ (s : State) (c : UnitId),
    (((s.unit c).icEnable.getLsbD 0 = true ∧ (s.unit c).role = .controller ∧ (s.unit c).txAbrt = false ∧ (s.unit c).txf ≠ [] ∧
        s.phase = .idle ∧ s.busUp c = false) ∨
      (s.phase = .readPending c (otherUnit c) ∧ (s.busUp c = false ∨ s.pinsReady (otherUnit c) = false))) →
    ∃ reason : Word, reason &&& 0x1FFFF ≠ 0 ∧ reason >>> 17 = 0 ∧ busTurn (.lost c) s =
      .next (((s.setUnit c { s.unit c with txAbrt := true, abrtSrc := reason, txf := [] }).setPhase .idle).drew 1)

/-- While TX_ABRT is set and no read is pending, a controller with a legal state performs nothing: none of its joint steps changes
anything (45_i2c_bus_engine.md R273). That a turn of a step that is not enabled changes nothing is the model's (log 9). -/
def Obligations.AbortedControllerPerformsNothing : Prop :=
  ∀ (s : State) (c : UnitId), (s.unit c).txAbrt = true → s.phase = .idle →
    busTurn (.write c) s = .next s ∧ busTurn (.readAddr c) s = .next s ∧ busTurn (.readData c) s = .next s ∧
    busTurn (.lost c) s = .next s

/-! ## The caller -/

/-- The caller's own statements and their expressions (30_encoding.md R141, R142): an assignment writes its variable and goes on, a
jump goes to its label, `halt` and the end of the program change nothing (that a turn there is a step is log 25), and the return of
an operation without a result goes on and changes no variable but the `x` of `x := …`, if given, which then holds a free value
(log 35); what each operator gives; and an unassigned variable, alone or in an operand, is `F_UNWRITTEN_VAR` for an assignment, a
condition and every operand of a pseudo-instruction (10_state.md R31). So a CPU step of a well-formed program always has a next state,
whatever the data. The model's own: an operator or operand of the wrong kind, a comparison of two kinds among them, gives a free
value (log 16); a boolean assigned to a field is 1 or 0 (log 34); both sides of an operator are evaluated, the left one first
(log 15); operands are evaluated at each step of an operation, after the check of the register for `modify`, a poll and a field list
(log 19, log 36). -/
def Obligations.CallerStatementsRun : Prop :=
  (∀ s : State,
    (∀ x e v, s.currentStmt = some (.assign x e) → evalExpr s.vars e = .ok v →
      cpuStep s = .next { s with vars := assignVar x v s.vars, pc := ⟨s.pc.stmt + 1, 0⟩ }) ∧
    (∀ e l k, s.currentStmt = some (.ifGoto e l) → labelIndex l s.program = some k →
      (evalBool s.vars e = .ok true → cpuStep s = .next { s with pc := ⟨k, 0⟩ }) ∧
      (evalBool s.vars e = .ok false → cpuStep s = .next { s with pc := ⟨s.pc.stmt + 1, 0⟩ })) ∧
    (∀ l k, s.currentStmt = some (.goto l) → labelIndex l s.program = some k → cpuStep s = .next { s with pc := ⟨k, 0⟩ }) ∧
    (s.currentStmt = some .halt ∨ s.currentStmt = none → cpuStep s = .next s) ∧
    (∀ x, ∃ (vars : List (Var × Val)) (k : Nat),
      s.retNone x = { s with vars := vars, drawCount := s.drawCount + k, pc := ⟨s.pc.stmt + 1, 0⟩ } ∧
      (∀ y, x ≠ some y → lookupVar y vars = lookupVar y s.vars) ∧ (x = none → vars = s.vars ∧ k = 0))) ∧
  (∀ (s : State) (e : Expr), s.fault = none →
    (evalExpr s.vars e = .error .unwritten →
      ((∃ x, s.currentStmt = some (.assign x e)) ∨ ∃ l, s.currentStmt = some (.ifGoto e l)) →
      cpuStep s = .next (s.setFault .unwrittenVar)) ∧
    (evalWord s.vars e = .error .unwritten → ∀ (x : Option Var) (r : Reg) (e' : Expr), ∀ i ∈
      [Instr.write r (.value e) x, .configureDigitalOutputPin e x, .configureSignalPin e e' x, .configureAsController e x,
        .writeByte x e, .configureAsTarget e x] ++ (if Reg.pollable r then [.waitForCondition r e e' x] else []),
      exec i s = .next (s.setFault .unwrittenVar)) ∧
    (∀ (x : Option Var) (r : Reg) (e' : Expr) (w : Word), evalWord s.vars e = .ok w →
      (evalBool s.vars e' = .error .unwritten → exec (.configureSignalPin e e' x) s = .next (s.setFault .unwrittenVar)) ∧
      (evalWord s.vars e' = .error .unwritten → Reg.pollable r = true →
        exec (.waitForCondition r e e' x) s = .next (s.setFault .unwrittenVar))) ∧
    (∀ (x : Option Var) (r : Reg) (fs : List (Field × Expr)), fieldsWf r fs = true → evalFields s.vars fs = .error .unwritten →
      (r.writable = true → exec (.write r (.fields fs) x) s = .next (s.setFault .unwrittenVar)) ∧
      (Reg.modifiable r = true → exec (.modify r fs x) s = .next (s.setFault .unwrittenVar)))) ∧
  (∀ s : State, programWf s.program = true → ∃ t, cpuStep s = .next t) ∧
  (∀ (vs : List (Var × Val)),
    (∀ w, evalExpr vs (.lit w) = .ok (.word w)) ∧ (∀ b, evalExpr vs (.litBool b) = .ok (.bool b)) ∧
    evalExpr vs .none = .ok (.opt none) ∧
    (∀ x, (∀ v, lookupVar x vs = some v → evalExpr vs (.var x) = .ok v) ∧
      (lookupVar x vs = none → evalExpr vs (.var x) = .error .unwritten)) ∧
    (∀ a b p q, evalExpr vs a = .ok p → evalExpr vs b = .ok q → p.sameKind q = true →
      evalExpr vs (.eq a b) = .ok (.bool (decide (p = q))) ∧ evalExpr vs (.ne a b) = .ok (.bool (decide (p ≠ q)))) ∧
    (∀ a b p q, evalExpr vs a = .ok (.bool p) → evalExpr vs b = .ok (.bool q) →
      evalExpr vs (.not a) = .ok (.bool (!p)) ∧ evalExpr vs (.and a b) = .ok (.bool (p && q)) ∧
      evalExpr vs (.or a b) = .ok (.bool (p || q)) ∧ ∀ f, evalFields vs [(f, a)] = .ok [(f, if p then 1 else 0)]) ∧
    (∀ a b p q, evalExpr vs a = .ok (.word p) → evalExpr vs b = .ok (.word q) →
      evalExpr vs (.some a) = .ok (.opt (some p)) ∧ evalExpr vs (.bitAnd a b) = .ok (.word (p &&& q)) ∧
      evalExpr vs (.bitOr a b) = .ok (.word (p ||| q)) ∧
      (∃ w : Word, evalExpr vs (.addMod256 a b) = .ok (.word w) ∧ w.toNat = (p.toNat + q.toNat) % 256) ∧
      (∀ hi lo, lo ≤ hi → hi < 32 → ∃ w : Word, evalExpr vs (.slice a hi lo) = .ok (.word w) ∧
        w.toNat = p.toNat / 2 ^ lo % 2 ^ (hi - lo + 1))) ∧
    (∀ a p, evalExpr vs a = .ok p → (∃ w, evalWord vs a = .ok w) ∧ (∃ t, evalBool vs a = .ok t) ∧
      (∀ f, ∃ w, evalFields vs [(f, a)] = .ok [(f, w)]) ∧
      (∃ v, evalExpr vs (.not a) = .ok v) ∧ (∃ v, evalExpr vs (.some a) = .ok v) ∧
      (∀ hi lo, lo ≤ hi → hi < 32 → ∃ v, evalExpr vs (.slice a hi lo) = .ok v) ∧
      ∀ op ∈ [Expr.eq, .ne, .and, .or, .addMod256, .bitAnd, .bitOr], ∀ b q, evalExpr vs b = .ok q →
        ∃ v, evalExpr vs (op a b) = .ok v) ∧
    (∀ op ∈ [Expr.eq, .ne, .and, .or, .addMod256, .bitAnd, .bitOr], ∀ a b,
      (evalExpr vs a = .error .unwritten → evalExpr vs (op a b) = .error .unwritten) ∧
      (∀ p, evalExpr vs a = .ok p → evalExpr vs b = .error .unwritten → evalExpr vs (op a b) = .error .unwritten)) ∧
    (∀ a hi lo, evalExpr vs a = .error .unwritten → evalExpr vs (.not a) = .error .unwritten ∧
      evalExpr vs (.some a) = .error .unwritten ∧ evalExpr vs (.slice a hi lo) = .error .unwritten))

/-- An end of a run is stable: whatever the schedule goes on with, nothing of the machine changes (30_encoding.md R142, R143): the CPU
takes no further step, and with no command queued and no read pending no joint step is enabled (45_i2c_bus_engine.md R273 to R279).
That a turn of a halted CPU or of a joint step that is not enabled is a step that changes nothing is the model's (log 25, log 9). -/
def Obligations.EndOfARunIsStable : Prop :=
  ∀ (s : State) (l : List Turn), Ended s → ∃ t, runAs l s = .next t ∧ SameMachine s t

/-! ## Whole transfers -/

/-- The transformation law (44_i2c_target.md R245; 43_i2c_controller.md R212, R213): for every byte, a `writeByte` on an idle
controller whose target acknowledges, the transfer falling before or after its one check of the abort flag, returns true, and
`receiveBytesToMemory` then stores the increment modulo 256. -/
def Obligations.WrittenByteIsStoredIncremented : Prop :=
  ∀ (s : State) (x : Var) (y : Option Var) (e : Expr) (b : Byte),
    s.pc.step = 0 → evalWord s.vars e = .ok (b.zeroExtend 32) → s.phase = .idle → s.busUp s.board.ctrlUnit = true →
    (s.unit s.board.ctrlUnit).icEnable.getLsbD 0 = true → (s.unit s.board.ctrlUnit).role = .controller →
    (s.unit s.board.ctrlUnit).txAbrt = false → (s.unit s.board.ctrlUnit).txf = [] →
    s.acks s.board.ctrlUnit s.board.tgtUnit = true → (s.unit s.board.tgtUnit).rxf = [] →
    ∃ s1 s2 s3 s2' s3' s4 : State,
      execTimes 2 (.writeByte (some x) e) s = .next s1 ∧
      busTurn (.write s.board.ctrlUnit) s1 = .next s2 ∧ exec (.writeByte (some x) e) s2 = .next s3 ∧
      exec (.writeByte (some x) e) s1 = .next s2' ∧ busTurn (.write s.board.ctrlUnit) s2' = .next s3' ∧ s3' = s3 ∧
      lookupVar x s3.vars = some (.bool true) ∧ s3.pc = ⟨s.pc.stmt + 1, 0⟩ ∧
      execTimes 2 (.receiveBytesToMemory y) s3 = .next s4 ∧ (∃ d : Byte, d.toNat = (b.toNat + 1) % 256 ∧ s4.memoryValue = some d) ∧
      (s4.unit s.board.ctrlUnit).txf = [] ∧ (s4.unit s.board.tgtUnit).rxf = [] ∧ s4.fault = s.fault

/-- The reply of a read (44_i2c_target.md R243, R244; 43_i2c_controller.md R214, R215; 45_i2c_bus_engine.md R276, R277): on an idle bus
with an acknowledging target, request, read address, serve, read data and receive return exactly the byte the target served, and
leave the bus idle, the FIFOs empty and RD_REQ clear. -/
def Obligations.ServedByteIsTheReply : Prop :=
  ∀ (s : State) (x : Var) (y z : Option Var), s.pc.step = 0 → s.phase = .idle → s.busUp s.board.ctrlUnit = true →
    (s.unit s.board.ctrlUnit).icEnable.getLsbD 0 = true → (s.unit s.board.ctrlUnit).role = .controller →
    (s.unit s.board.ctrlUnit).txAbrt = false → (s.unit s.board.ctrlUnit).txf = [] → (s.unit s.board.ctrlUnit).rxf = [] →
    s.acks s.board.ctrlUnit s.board.tgtUnit = true → (s.unit s.board.tgtUnit).txf = [] →
    ∃ s1 s2 s3 s4 s5 : State,
      execTimes 2 (.requestByteFromMemory y) s = .next s1 ∧ busTurn (.readAddr s.board.ctrlUnit) s1 = .next s2 ∧
      execTimes 3 (.serveBytesFromMemory z) s2 = .next s3 ∧ busTurn (.readData s.board.ctrlUnit) s3 = .next s4 ∧
      execTimes 3 (.receiveRequestedBytesFromMemory (some x)) s4 = .next s5 ∧
      lookupVar x s5.vars = some (.opt (some ((s.memoryValue.getD 0).zeroExtend 32))) ∧ s5.requested = true ∧
      s5.memoryValue = s.memoryValue ∧ s5.phase = .idle ∧ (s5.unit s.board.ctrlUnit).txf = [] ∧
      (s5.unit s.board.ctrlUnit).rxf = [] ∧ (s5.unit s.board.tgtUnit).txf = [] ∧ (s5.unit s.board.tgtUnit).rdReq = false ∧
      s5.pc = ⟨s.pc.stmt + 3, 0⟩ ∧ s5.fault = s.fault

/-- A wait whose byte cannot come never ends (42_busy_wait.md R202; 43_i2c_controller.md R216; 95_test_vectors.md E7, P5): a
receive on a target that is not enabled, and a second receive with no read under way, are kept where they are by every step of
either agent, since no joint step delivers to a target that does not acknowledge or without a command (45_i2c_bus_engine.md R272 to
R277). Every step has a next state; that a turn of a joint step that is not enabled has one is the model's (log 9). -/
def Obligations.WaitWithoutASourceNeverEnds : Prop :=
  (∀ (s : State) (x : Option Var), ProtocolInv s → s.fault = none → fetchInstr s = some (.receiveBytesToMemory x) → s.pc.step = 0 →
    (s.unit s.board.tgtUnit).enabled = false →
    ∃ t, step s = .next t ∧ ProtocolInv t ∧ t.fault = none ∧ fetchInstr t = some (.receiveBytesToMemory x) ∧ t.pc = s.pc ∧
      (t.unit t.board.tgtUnit).enabled = false ∧ t.memoryValue = s.memoryValue ∧ t.vars = s.vars) ∧
  (∀ (s : State) (x : Option Var), ProtocolInv s → s.fault = none →
    fetchInstr s = some (.receiveRequestedBytesFromMemory x) → s.pc.step = 1 → s.phase = .idle →
    (s.unit s.board.ctrlUnit).role = .controller → (s.unit s.board.tgtUnit).role = .target →
    (s.unit s.board.ctrlUnit).txf = [] → (s.unit s.board.ctrlUnit).rxf = [] →
    ∃ t, step s = .next t ∧ ProtocolInv t ∧ t.fault = none ∧
      fetchInstr t = some (.receiveRequestedBytesFromMemory x) ∧ t.pc = s.pc ∧ t.phase = .idle ∧
      (t.unit t.board.ctrlUnit).role = .controller ∧ (t.unit t.board.tgtUnit).role = .target ∧
      (t.unit t.board.ctrlUnit).txf = [] ∧ (t.unit t.board.ctrlUnit).rxf = [] ∧ t.vars = s.vars)

end
end

