-- ==== Sys2Proof/Laws/Bits.lean ====
section
/-! SUPPORT. Bits of masked and shifted words. -/

namespace Sys2Proof
namespace Machine

/-- A word whose bits from `k` up are 0 is kept by a mask that holds the bits below `k`. -/
theorem and_of_shiftRight_eq_zero {v m : Word} {k : Nat} (h : v >>> k = 0) (hm : ∀ i, i < k → m.getLsbD i = true) :
    v &&& m = v := by
  apply BitVec.eq_of_getLsbD_eq
  intro i hi
  have hb := congrArg (fun x => BitVec.getLsbD x (i - k)) h
  simp at hb
  by_cases hik : i < k
  · simp [hm i hik]
  · rw [show k + (i - k) = i by omega] at hb
    simp [hb]

/-- The bits of a mask of the lowest `n` bits. -/
theorem getLsbD_lowMask {n : Nat} (hn : n ≤ 32) (j : Nat) : (lowMask n).getLsbD j = decide (j < n) := by
  simp only [lowMask, BitVec.getLsbD_ofNat]
  rw [Nat.testBit_two_pow_sub_one]
  by_cases h : j < n
  · simp [h]; omega
  · simp [h]

/-- No bit from `k` up is set. -/
theorem and_not_lowMask {k : Nat} (hk : k ≤ 32) (v : Word) : v &&& ~~~lowMask k = 0 ↔ v >>> k = 0 := by
  have hm : ∀ i, i < 32 → (v &&& ~~~lowMask k).getLsbD i = (decide (k ≤ i) && v.getLsbD i) := by
    intro i hi
    rw [BitVec.getLsbD_and, BitVec.getLsbD_not, getLsbD_lowMask hk]
    by_cases h : i < k <;> simp [h, hi]
    omega
  constructor
  · intro h
    apply BitVec.eq_of_getLsbD_eq
    intro i hi
    by_cases hlt : k + i < 32
    · have := hm (k + i) hlt
      rw [h] at this
      simpa [BitVec.getLsbD_ushiftRight] using this.symm
    · simp [BitVec.getLsbD_of_ge v (k + i) (by omega)]
  · intro h
    apply BitVec.eq_of_getLsbD_eq
    intro i hi
    rw [hm i hi]
    by_cases hik : k ≤ i
    · have hb := congrArg (fun x => BitVec.getLsbD x (i - k)) h
      simp only [BitVec.getLsbD_ushiftRight] at hb
      rw [show k + (i - k) = i by omega] at hb
      simp [hb]
    · simp [hik]

/-- A word of which only bit 0 may be set is 0 or 1. -/
theorem eq_zero_or_one {w : Word} (h : w >>> 1 = 0) : w = 0 ∨ w = 1 := by
  have hn : w.toNat / 2 = 0 := by
    have := congrArg BitVec.toNat h
    simpa [BitVec.toNat_ushiftRight, Nat.shiftRight_eq_div_pow] using this
  have : w.toNat = 0 ∨ w.toNat = 1 := by omega
  obtain h0 | h1 := this
  · left; exact BitVec.eq_of_toNat_eq (by simpa using h0)
  · right; exact BitVec.eq_of_toNat_eq (by simpa using h1)

end Machine
end Sys2Proof
end

