-- ==== Sys2Proof/Laws/Fields.lean ====
section
/-! SUPPORT. What the parameter `Layout` comes to at its default: the masks, patterns and command words as numbers (10_state.md R35
to R52; 30_encoding.md R112, R115). -/

namespace Sys2Proof
namespace Machine

@[simp] theorem fieldBits_eq (f : Field) : fieldBits f = rp2350Bits f := rfl

@[simp] theorem getFlag_eq (f : Field) (w : Word) : getFlag f w = w.getLsbD (rp2350Bits f).2 := rfl

/-! ## Masks -/

@[simp] theorem fieldMask_dat : fieldMask .dat = 0xFF := by decide
@[simp] theorem fieldMask_firstDataByte : fieldMask .firstDataByte = 0x800 := by decide
@[simp] theorem fieldMask_clrRdReq : fieldMask .clrRdReq = 1 := by decide
@[simp] theorem fieldMask_clrTxAbrt : fieldMask .clrTxAbrt = 1 := by decide
@[simp] theorem fieldMask_txFlushCnt : fieldMask .txFlushCnt = 0xFF800000 := by decide
@[simp] theorem fieldMask_abrt7bAddrNoack : fieldMask .abrt7bAddrNoack = 1 := by decide
@[simp] theorem fieldMask_tfnf : fieldMask .tfnf = 0x2 := by decide
@[simp] theorem fieldMask_rfne : fieldMask .rfne = 0x8 := by decide
@[simp] theorem fieldMask_rdReq : fieldMask .rdReq = 0x20 := by decide

@[simp] theorem readMask_icCon (u : UnitId) : (Reg.icCon u).readMask = 0x3FF := by
  simp only [Reg.readMask, Reg.readFields]; decide
@[simp] theorem readMask_icTar (u : UnitId) : (Reg.icTar u).readMask = 0xFFF := by
  simp only [Reg.readMask, Reg.readFields]; decide
@[simp] theorem readMask_icSar (u : UnitId) : (Reg.icSar u).readMask = 0x3FF := by
  simp only [Reg.readMask, Reg.readFields]; decide
@[simp] theorem readMask_icEnable (u : UnitId) : (Reg.icEnable u).readMask = 1 := by
  simp only [Reg.readMask, Reg.readFields]; decide
@[simp] theorem readMask_pad (n : Pin) : (Reg.pad n).readMask = 0x1FF := by
  simp only [Reg.readMask, Reg.readFields]; decide
@[simp] theorem readMask_ctrl (n : Pin) : (Reg.ctrl n).readMask = 0x3003F01F := by
  simp only [Reg.readMask, Reg.readFields]; decide
@[simp] theorem readMask_gpioOut : Reg.gpioOut.readMask = 0x3FFFFFFF := by decide
@[simp] theorem readMask_gpioOe : Reg.gpioOe.readMask = 0x3FFFFFFF := by decide

/-- A write mask of the lowest `k` bits is the pattern "bits 31:k = 0". -/
theorem admitsValue_of_mask {r : Reg} {k : Nat} (hk : k ≤ 32) (h : r.writeMask = lowMask k) (v : Word) :
    r.admitsValue v = true ↔ v >>> k = 0 := by
  unfold Reg.admitsValue
  rw [h, beq_iff_eq, and_not_lowMask hk]

@[simp] theorem admitsValue_icCon (u : UnitId) (v : Word) : (Reg.icCon u).admitsValue v = true ↔ v >>> 10 = 0 :=
  admitsValue_of_mask (by decide) (by simp only [Reg.writeMask, Reg.writeFields, Reg.readFields]; decide) v
@[simp] theorem admitsValue_icTar (u : UnitId) (v : Word) : (Reg.icTar u).admitsValue v = true ↔ v >>> 12 = 0 :=
  admitsValue_of_mask (by decide) (by simp only [Reg.writeMask, Reg.writeFields, Reg.readFields]; decide) v
@[simp] theorem admitsValue_icSar (u : UnitId) (v : Word) : (Reg.icSar u).admitsValue v = true ↔ v >>> 10 = 0 :=
  admitsValue_of_mask (by decide) (by simp only [Reg.writeMask, Reg.writeFields, Reg.readFields]; decide) v
@[simp] theorem admitsValue_icDataCmd (u : UnitId) (v : Word) : (Reg.icDataCmd u).admitsValue v = true ↔ v >>> 12 = 0 :=
  admitsValue_of_mask (by decide) (by simp only [Reg.writeMask, Reg.writeFields]; decide) v
@[simp] theorem admitsValue_icEnable (u : UnitId) (v : Word) : (Reg.icEnable u).admitsValue v = true ↔ v >>> 1 = 0 :=
  admitsValue_of_mask (by decide) (by simp only [Reg.writeMask, Reg.writeFields, Reg.readFields]; decide) v
@[simp] theorem admitsValue_pad (n : Pin) (v : Word) : (Reg.pad n).admitsValue v = true ↔ v >>> 9 = 0 :=
  admitsValue_of_mask (by decide) (by simp only [Reg.writeMask, Reg.writeFields, Reg.readFields]; decide) v
@[simp] theorem admitsValue_ctrl (n : Pin) (v : Word) : (Reg.ctrl n).admitsValue v = true ↔ v >>> 5 = 0 :=
  admitsValue_of_mask (by decide) (by simp only [Reg.writeMask, Reg.writeFields]; decide) v
@[simp] theorem admitsValue_gpioOut (v : Word) : Reg.gpioOut.admitsValue v = true ↔ v >>> 30 = 0 :=
  admitsValue_of_mask (by decide) (by decide) v
@[simp] theorem admitsValue_gpioOutSet (v : Word) : Reg.gpioOutSet.admitsValue v = true ↔ v >>> 30 = 0 :=
  admitsValue_of_mask (by decide) (by decide) v
@[simp] theorem admitsValue_gpioOutClr (v : Word) : Reg.gpioOutClr.admitsValue v = true ↔ v >>> 30 = 0 :=
  admitsValue_of_mask (by decide) (by decide) v
@[simp] theorem admitsValue_gpioOe (v : Word) : Reg.gpioOe.admitsValue v = true ↔ v >>> 30 = 0 :=
  admitsValue_of_mask (by decide) (by decide) v
@[simp] theorem admitsValue_gpioOeSet (v : Word) : Reg.gpioOeSet.admitsValue v = true ↔ v >>> 30 = 0 :=
  admitsValue_of_mask (by decide) (by decide) v
@[simp] theorem admitsValue_gpioOeClr (v : Word) : Reg.gpioOeClr.admitsValue v = true ↔ v >>> 30 = 0 :=
  admitsValue_of_mask (by decide) (by decide) v

/-! ## Address fields -/

/-- The low 7 bits of an address field are the low 7 bits of its register (30_encoding.md R116). -/
theorem getField_tarAddress (w : Word) : getField .tarAddress w = w &&& 0x3FF := by
  have : lowMask (fieldWidth .tarAddress) = 0x3FF := by decide
  simp [getField, this]

theorem getField_sarAddress (w : Word) : getField .sarAddress w = w &&& 0x3FF := getField_tarAddress w

@[simp] theorem getField_tarAddress_and (w : Word) : getField .tarAddress w &&& (0x7F : Word) = w &&& 0x7F := by
  rw [getField_tarAddress, BitVec.and_assoc]; rfl

@[simp] theorem getField_sarAddress_and (w : Word) : getField .sarAddress w &&& (0x7F : Word) = w &&& 0x7F :=
  getField_tarAddress_and w

/-- Bits 9:7 of an address field. -/
@[simp] theorem getField_tarAddress_high (w : Word) : (getField .tarAddress w >>> 7) &&& (0x7 : Word) = (w >>> 7) &&& 0x7 := by
  rw [getField_tarAddress, BitVec.ushiftRight_and_distrib, BitVec.and_assoc]; rfl

@[simp] theorem getField_sarAddress_high (w : Word) : (getField .sarAddress w >>> 7) &&& (0x7 : Word) = (w >>> 7) &&& 0x7 :=
  getField_tarAddress_high w

/-! ## Data bytes and command words -/

theorem getField_dat (v : Word) : getField .dat v = v &&& 0xFF := by
  have : lowMask (fieldWidth .dat) = 0xFF := by decide
  simp [getField, this]

theorem truncate_and_ff (v : Word) : (v &&& (0xFF : Word)).truncate 8 = v.truncate 8 := by
  apply BitVec.eq_of_getLsbD_eq
  intro i hi
  have : (0xFF : Word) = lowMask 8 := by decide
  rw [this, BitVec.truncate_eq_setWidth, BitVec.truncate_eq_setWidth, BitVec.getLsbD_setWidth, BitVec.getLsbD_setWidth,
    BitVec.getLsbD_and, getLsbD_lowMask (by decide)]
  simp [hi]

@[simp] theorem truncate_getField_dat (v : Word) : (getField .dat v).truncate 8 = v.truncate 8 := by
  rw [getField_dat, truncate_and_ff]

@[simp] theorem commandByte_eq (v : Word) : commandByte v = v.truncate 8 := truncate_getField_dat v

theorem commandWord_cw (b : Byte) : commandWord .cw b = 0x200 ||| b.zeroExtend 32 := by
  have : formWord .cw = 0x200 := by decide
  simp [commandWord, this]

theorem commandWord_cr (b : Byte) : commandWord .cr b = 0x300 ||| b.zeroExtend 32 := by
  have : formWord .cr = 0x300 := by decide
  simp [commandWord, this]

theorem commandWord_td (b : Byte) : commandWord .td b = b.zeroExtend 32 := by
  have : formWord .td = 0 := by decide
  simp [commandWord, this]

end Machine
end Sys2Proof
end

