-- ==== Sys2Proof/Laws/Decode.lean ====
section
/-! SUPPORT. Laws of the decoder and the encoder: addresses and registers, command words and forms. -/

namespace Sys2Proof

open Machine

/-! ## Addresses -/

/-- The table of addresses read back: the register at a register's address is that register (30_encoding.md R112). -/
theorem regAt_addr (r : Reg) : regAt r.addr = some r := by
  cases r with
  | pad n => revert n; decide
  | ctrl n => revert n; decide
  | gpioOut | gpioOutSet | gpioOutClr | gpioOe | gpioOeSet | gpioOeClr => decide
  | icCon u | icTar u | icSar u | icDataCmd u | icRawIntrStat u | icClrRdReq u | icClrTxAbrt u | icEnable u
  | icStatus u | icTxAbrtSource u | icEnableStatus u => revert u; decide

/-- Every register's address is aligned (20_memory.md R83). -/
theorem wordAligned_addr (r : Reg) : wordAligned r.addr 4 = true := by
  cases r with
  | pad n => revert n; decide
  | ctrl n => revert n; decide
  | gpioOut | gpioOutSet | gpioOutClr | gpioOe | gpioOeSet | gpioOeClr => decide
  | icCon u | icTar u | icSar u | icDataCmd u | icRawIntrStat u | icClrRdReq u | icClrTxAbrt u | icEnable u
  | icStatus u | icTxAbrtSource u | icEnableStatus u => revert u; decide

/-- An address at which a register stands is that register's address: no two addresses reach one register. -/
theorem addr_of_regAt {a : Word} {r : Reg} (h : regAt a = some r) : r.addr = a := by
  unfold regAt at h
  split at h
  · rename_i x hx
    have hr := List.mem_of_find?_eq_some h
    have hoff := List.find?_some h
    simp only [beq_iff_eq] at hoff
    have hw : r.window = x := by
      cases x <;> simp [windowRegs] at hr
      case pads => obtain ⟨n, rfl⟩ := hr; rfl
      case iobank => obtain ⟨n, rfl⟩ := hr; rfl
      all_goals
        rcases hr with rfl | rfl | rfl | rfl | rfl | hr <;> (try rfl)
      all_goals rcases hr with rfl | rfl | rfl | rfl | rfl | rfl <;> rfl
    rw [Reg.addr, hw, hoff]
    simp
  · simp at h

/-! ## Command words (30_encoding.md R115) -/

theorem shiftRight8_or (k : Word) (b : Byte) : (k ||| b.zeroExtend 32) >>> 8 = k >>> 8 := by
  apply BitVec.eq_of_getLsbD_eq
  intro i hi
  simp

/-- Bits 31:8 alone tell a form from the others. -/
theorem and_not_dat {v k : Word} : v &&& ~~~fieldMask .dat = k <<< 8 ↔ v >>> 8 = k &&& 0xFFFFFF := by
  have hm : fieldMask .dat = lowMask 8 := by decide
  have hk : (0xFFFFFF : Word) = lowMask 24 := by decide
  rw [hm, hk]
  constructor <;> intro h <;> apply BitVec.eq_of_getLsbD_eq <;> intro i hi
  · have hb := congrArg (fun x => BitVec.getLsbD x (8 + i)) h
    simp only [BitVec.getLsbD_and, BitVec.getLsbD_not, getLsbD_lowMask (show 8 ≤ 32 by decide), BitVec.getLsbD_shiftLeft,
      getLsbD_lowMask (show 24 ≤ 32 by decide), BitVec.getLsbD_ushiftRight] at hb ⊢
    by_cases h24 : i < 24
    · have : 8 + i < 32 := by omega
      simpa [h24, this] using hb
    · simp [h24, BitVec.getLsbD_of_ge v (8 + i) (by omega)]
  · simp only [BitVec.getLsbD_and, BitVec.getLsbD_not, getLsbD_lowMask (show 8 ≤ 32 by decide), BitVec.getLsbD_shiftLeft]
    by_cases h8 : i < 8
    · simp [h8]
    · have hb := congrArg (fun x => BitVec.getLsbD x (i - 8)) h
      simp only [BitVec.getLsbD_and, getLsbD_lowMask (show 24 ≤ 32 by decide), BitVec.getLsbD_ushiftRight,
        show 8 + (i - 8) = i by omega] at hb
      rw [hb]
      simp [h8, hi, show i - 8 < 24 by omega]

theorem formWord_iff {v : Word} (f : CommandForm) :
    v &&& ~~~fieldMask .dat = formWord f ↔ v >>> 8 = (match f with | .cw => 2 | .cr => 3 | .td => 0) := by
  cases f
  · have : formWord .cw = (2 : Word) <<< 8 := by decide
    rw [this, and_not_dat]; rfl
  · have : formWord .cr = (3 : Word) <<< 8 := by decide
    rw [this, and_not_dat]; rfl
  · have : formWord .td = (0 : Word) <<< 8 := by decide
    rw [this, and_not_dat]; rfl

theorem commandForm_iff {v : Word} (f : CommandForm) : commandForm v = some f ↔ v &&& ~~~fieldMask .dat = formWord f := by
  have hcw : formWord .cw = 0x200 := by decide
  have hcr : formWord .cr = 0x300 := by decide
  have htd : formWord .td = 0 := by decide
  unfold commandForm
  generalize v &&& ~~~fieldMask .dat = w
  cases f <;> simp only [List.find?, hcw, hcr, htd] <;> split <;> simp_all <;> split <;> simp_all <;> split <;> simp_all

theorem commandForm_cw {v : Word} : commandForm v = some .cw ↔ v >>> 8 = 2 := by rw [commandForm_iff, formWord_iff]
theorem commandForm_cr {v : Word} : commandForm v = some .cr ↔ v >>> 8 = 3 := by rw [commandForm_iff, formWord_iff]
theorem commandForm_td {v : Word} : commandForm v = some .td ↔ v >>> 8 = 0 := by rw [commandForm_iff, formWord_iff]

theorem commandForm_commandWord (f : CommandForm) (b : Byte) : commandForm (commandWord f b) = some f := by
  cases f
  · rw [commandForm_cw, commandWord_cw, shiftRight8_or]; rfl
  · rw [commandForm_cr, commandWord_cr, shiftRight8_or]; rfl
  · rw [commandForm_td, commandWord_td]
    have := shiftRight8_or 0 b
    simpa using this

theorem truncate_commandWord (f : CommandForm) (b : Byte) : (commandWord f b).truncate 8 = b := by
  apply BitVec.eq_of_getLsbD_eq
  intro i hi
  have : i = 0 ∨ i = 1 ∨ i = 2 ∨ i = 3 ∨ i = 4 ∨ i = 5 ∨ i = 6 ∨ i = 7 := by omega
  cases f <;> simp only [commandWord_cw, commandWord_cr, commandWord_td] <;>
    rcases this with rfl | rfl | rfl | rfl | rfl | rfl | rfl | rfl <;> simp

/-- A word whose bits 31:8 are those of a form is that form's command word. -/
theorem commandWord_truncate {f : CommandForm} {v : Word} (h : commandForm v = some f) :
    commandWord f (v.truncate 8) = v := by
  have key : ∀ k : Word, v >>> 8 = k → ((k <<< 8) ||| (v.truncate 8).zeroExtend 32) = v := by
    intro k hk
    subst hk
    apply BitVec.eq_of_getLsbD_eq
    intro i hi
    by_cases h8 : i < 8
    · simp [h8]; omega
    · have : 8 + (i - 8) = i := by omega
      simp [h8, this, hi]
  cases f
  · rw [commandWord_cw]; exact key 2 (commandForm_cw.1 h)
  · rw [commandWord_cr]; exact key 3 (commandForm_cr.1 h)
  · rw [commandWord_td]
    have := key 0 (commandForm_td.1 h)
    simpa using this

end Sys2Proof
end

