-- ==== Sys2Proof/Laws/State.lean ====
section
/-! SUPPORT. One lemma per field per update of State, so that no proof unfolds a record update, and the laws of the register
accessors. -/

namespace Sys2Proof
namespace Machine

@[simp] theorem State.setUnit_board (s : State) (u : UnitId) (un : UnitState) : (s.setUnit u un).board = s.board := rfl
@[simp] theorem State.setUnit_program (s : State) (u : UnitId) (un : UnitState) : (s.setUnit u un).program = s.program := rfl
@[simp] theorem State.setUnit_pc (s : State) (u : UnitId) (un : UnitState) : (s.setUnit u un).pc = s.pc := rfl
@[simp] theorem State.setUnit_vars (s : State) (u : UnitId) (un : UnitState) : (s.setUnit u un).vars = s.vars := rfl
@[simp] theorem State.setUnit_latch (s : State) (u : UnitId) (un : UnitState) : (s.setUnit u un).latch = s.latch := rfl
@[simp] theorem State.setUnit_requested (s : State) (u : UnitId) (un : UnitState) : (s.setUnit u un).requested = s.requested := rfl
@[simp] theorem State.setUnit_memoryValue (s : State) (u : UnitId) (un : UnitState) : (s.setUnit u un).memoryValue = s.memoryValue := rfl
@[simp] theorem State.setUnit_targetAddress (s : State) (u : UnitId) (un : UnitState) : (s.setUnit u un).targetAddress = s.targetAddress := rfl
@[simp] theorem State.setUnit_phase (s : State) (u : UnitId) (un : UnitState) : (s.setUnit u un).phase = s.phase := rfl
@[simp] theorem State.setUnit_pads (s : State) (u : UnitId) (un : UnitState) : (s.setUnit u un).pads = s.pads := rfl
@[simp] theorem State.setUnit_ctrls (s : State) (u : UnitId) (un : UnitState) : (s.setUnit u un).ctrls = s.ctrls := rfl
@[simp] theorem State.setUnit_sioOut (s : State) (u : UnitId) (un : UnitState) : (s.setUnit u un).sioOut = s.sioOut := rfl
@[simp] theorem State.setUnit_sioOe (s : State) (u : UnitId) (un : UnitState) : (s.setUnit u un).sioOe = s.sioOe := rfl
@[simp] theorem State.setUnit_fault (s : State) (u : UnitId) (un : UnitState) : (s.setUnit u un).fault = s.fault := rfl
@[simp] theorem State.setUnit_turn (s : State) (u : UnitId) (un : UnitState) : (s.setUnit u un).turn = s.turn := rfl
@[simp] theorem State.setUnit_turnCount (s : State) (u : UnitId) (un : UnitState) : (s.setUnit u un).turnCount = s.turnCount := rfl
@[simp] theorem State.setUnit_drawCount (s : State) (u : UnitId) (un : UnitState) : (s.setUnit u un).drawCount = s.drawCount := rfl
@[simp] theorem State.setUnit_pad (s : State) (u : UnitId) (un : UnitState) (n' : Pin) : (s.setUnit u un).pad n' = s.pad n' := rfl
@[simp] theorem State.setUnit_ctrl (s : State) (u : UnitId) (un : UnitState) (n' : Pin) : (s.setUnit u un).ctrl n' = s.ctrl n' := rfl
@[simp] theorem State.setUnit_draw (s : State) (u : UnitId) (un : UnitState) (k : Nat) : (s.setUnit u un).draw k = s.draw k := rfl

@[simp] theorem State.setPad_board (s : State) (n : Pin) (v : Word) : (s.setPad n v).board = s.board := rfl
@[simp] theorem State.setPad_program (s : State) (n : Pin) (v : Word) : (s.setPad n v).program = s.program := rfl
@[simp] theorem State.setPad_pc (s : State) (n : Pin) (v : Word) : (s.setPad n v).pc = s.pc := rfl
@[simp] theorem State.setPad_vars (s : State) (n : Pin) (v : Word) : (s.setPad n v).vars = s.vars := rfl
@[simp] theorem State.setPad_latch (s : State) (n : Pin) (v : Word) : (s.setPad n v).latch = s.latch := rfl
@[simp] theorem State.setPad_requested (s : State) (n : Pin) (v : Word) : (s.setPad n v).requested = s.requested := rfl
@[simp] theorem State.setPad_memoryValue (s : State) (n : Pin) (v : Word) : (s.setPad n v).memoryValue = s.memoryValue := rfl
@[simp] theorem State.setPad_targetAddress (s : State) (n : Pin) (v : Word) : (s.setPad n v).targetAddress = s.targetAddress := rfl
@[simp] theorem State.setPad_units (s : State) (n : Pin) (v : Word) : (s.setPad n v).units = s.units := rfl
@[simp] theorem State.setPad_phase (s : State) (n : Pin) (v : Word) : (s.setPad n v).phase = s.phase := rfl
@[simp] theorem State.setPad_ctrls (s : State) (n : Pin) (v : Word) : (s.setPad n v).ctrls = s.ctrls := rfl
@[simp] theorem State.setPad_sioOut (s : State) (n : Pin) (v : Word) : (s.setPad n v).sioOut = s.sioOut := rfl
@[simp] theorem State.setPad_sioOe (s : State) (n : Pin) (v : Word) : (s.setPad n v).sioOe = s.sioOe := rfl
@[simp] theorem State.setPad_fault (s : State) (n : Pin) (v : Word) : (s.setPad n v).fault = s.fault := rfl
@[simp] theorem State.setPad_turn (s : State) (n : Pin) (v : Word) : (s.setPad n v).turn = s.turn := rfl
@[simp] theorem State.setPad_turnCount (s : State) (n : Pin) (v : Word) : (s.setPad n v).turnCount = s.turnCount := rfl
@[simp] theorem State.setPad_drawCount (s : State) (n : Pin) (v : Word) : (s.setPad n v).drawCount = s.drawCount := rfl
@[simp] theorem State.setPad_unit (s : State) (n : Pin) (v : Word) (u' : UnitId) : (s.setPad n v).unit u' = s.unit u' := rfl
@[simp] theorem State.setPad_ctrl (s : State) (n : Pin) (v : Word) (n' : Pin) : (s.setPad n v).ctrl n' = s.ctrl n' := rfl
@[simp] theorem State.setPad_draw (s : State) (n : Pin) (v : Word) (k : Nat) : (s.setPad n v).draw k = s.draw k := rfl

@[simp] theorem State.setCtrl_board (s : State) (n : Pin) (v : Word) : (s.setCtrl n v).board = s.board := rfl
@[simp] theorem State.setCtrl_program (s : State) (n : Pin) (v : Word) : (s.setCtrl n v).program = s.program := rfl
@[simp] theorem State.setCtrl_pc (s : State) (n : Pin) (v : Word) : (s.setCtrl n v).pc = s.pc := rfl
@[simp] theorem State.setCtrl_vars (s : State) (n : Pin) (v : Word) : (s.setCtrl n v).vars = s.vars := rfl
@[simp] theorem State.setCtrl_latch (s : State) (n : Pin) (v : Word) : (s.setCtrl n v).latch = s.latch := rfl
@[simp] theorem State.setCtrl_requested (s : State) (n : Pin) (v : Word) : (s.setCtrl n v).requested = s.requested := rfl
@[simp] theorem State.setCtrl_memoryValue (s : State) (n : Pin) (v : Word) : (s.setCtrl n v).memoryValue = s.memoryValue := rfl
@[simp] theorem State.setCtrl_targetAddress (s : State) (n : Pin) (v : Word) : (s.setCtrl n v).targetAddress = s.targetAddress := rfl
@[simp] theorem State.setCtrl_units (s : State) (n : Pin) (v : Word) : (s.setCtrl n v).units = s.units := rfl
@[simp] theorem State.setCtrl_phase (s : State) (n : Pin) (v : Word) : (s.setCtrl n v).phase = s.phase := rfl
@[simp] theorem State.setCtrl_pads (s : State) (n : Pin) (v : Word) : (s.setCtrl n v).pads = s.pads := rfl
@[simp] theorem State.setCtrl_sioOut (s : State) (n : Pin) (v : Word) : (s.setCtrl n v).sioOut = s.sioOut := rfl
@[simp] theorem State.setCtrl_sioOe (s : State) (n : Pin) (v : Word) : (s.setCtrl n v).sioOe = s.sioOe := rfl
@[simp] theorem State.setCtrl_fault (s : State) (n : Pin) (v : Word) : (s.setCtrl n v).fault = s.fault := rfl
@[simp] theorem State.setCtrl_turn (s : State) (n : Pin) (v : Word) : (s.setCtrl n v).turn = s.turn := rfl
@[simp] theorem State.setCtrl_turnCount (s : State) (n : Pin) (v : Word) : (s.setCtrl n v).turnCount = s.turnCount := rfl
@[simp] theorem State.setCtrl_drawCount (s : State) (n : Pin) (v : Word) : (s.setCtrl n v).drawCount = s.drawCount := rfl
@[simp] theorem State.setCtrl_unit (s : State) (n : Pin) (v : Word) (u' : UnitId) : (s.setCtrl n v).unit u' = s.unit u' := rfl
@[simp] theorem State.setCtrl_pad (s : State) (n : Pin) (v : Word) (n' : Pin) : (s.setCtrl n v).pad n' = s.pad n' := rfl
@[simp] theorem State.setCtrl_draw (s : State) (n : Pin) (v : Word) (k : Nat) : (s.setCtrl n v).draw k = s.draw k := rfl

@[simp] theorem State.setPhase_board (s : State) (p : Phase) : (s.setPhase p).board = s.board := rfl
@[simp] theorem State.setPhase_program (s : State) (p : Phase) : (s.setPhase p).program = s.program := rfl
@[simp] theorem State.setPhase_pc (s : State) (p : Phase) : (s.setPhase p).pc = s.pc := rfl
@[simp] theorem State.setPhase_vars (s : State) (p : Phase) : (s.setPhase p).vars = s.vars := rfl
@[simp] theorem State.setPhase_latch (s : State) (p : Phase) : (s.setPhase p).latch = s.latch := rfl
@[simp] theorem State.setPhase_requested (s : State) (p : Phase) : (s.setPhase p).requested = s.requested := rfl
@[simp] theorem State.setPhase_memoryValue (s : State) (p : Phase) : (s.setPhase p).memoryValue = s.memoryValue := rfl
@[simp] theorem State.setPhase_targetAddress (s : State) (p : Phase) : (s.setPhase p).targetAddress = s.targetAddress := rfl
@[simp] theorem State.setPhase_units (s : State) (p : Phase) : (s.setPhase p).units = s.units := rfl
@[simp] theorem State.setPhase_pads (s : State) (p : Phase) : (s.setPhase p).pads = s.pads := rfl
@[simp] theorem State.setPhase_ctrls (s : State) (p : Phase) : (s.setPhase p).ctrls = s.ctrls := rfl
@[simp] theorem State.setPhase_sioOut (s : State) (p : Phase) : (s.setPhase p).sioOut = s.sioOut := rfl
@[simp] theorem State.setPhase_sioOe (s : State) (p : Phase) : (s.setPhase p).sioOe = s.sioOe := rfl
@[simp] theorem State.setPhase_fault (s : State) (p : Phase) : (s.setPhase p).fault = s.fault := rfl
@[simp] theorem State.setPhase_turn (s : State) (p : Phase) : (s.setPhase p).turn = s.turn := rfl
@[simp] theorem State.setPhase_turnCount (s : State) (p : Phase) : (s.setPhase p).turnCount = s.turnCount := rfl
@[simp] theorem State.setPhase_drawCount (s : State) (p : Phase) : (s.setPhase p).drawCount = s.drawCount := rfl
@[simp] theorem State.setPhase_unit (s : State) (p : Phase) (u' : UnitId) : (s.setPhase p).unit u' = s.unit u' := rfl
@[simp] theorem State.setPhase_pad (s : State) (p : Phase) (n' : Pin) : (s.setPhase p).pad n' = s.pad n' := rfl
@[simp] theorem State.setPhase_ctrl (s : State) (p : Phase) (n' : Pin) : (s.setPhase p).ctrl n' = s.ctrl n' := rfl
@[simp] theorem State.setPhase_draw (s : State) (p : Phase) (k : Nat) : (s.setPhase p).draw k = s.draw k := rfl
@[simp] theorem State.setPhase_phase (s : State) (p : Phase) : (s.setPhase p).phase = p := rfl

@[simp] theorem State.setOut_board (s : State) (v : Word) : (s.setOut v).board = s.board := rfl
@[simp] theorem State.setOut_program (s : State) (v : Word) : (s.setOut v).program = s.program := rfl
@[simp] theorem State.setOut_pc (s : State) (v : Word) : (s.setOut v).pc = s.pc := rfl
@[simp] theorem State.setOut_vars (s : State) (v : Word) : (s.setOut v).vars = s.vars := rfl
@[simp] theorem State.setOut_latch (s : State) (v : Word) : (s.setOut v).latch = s.latch := rfl
@[simp] theorem State.setOut_requested (s : State) (v : Word) : (s.setOut v).requested = s.requested := rfl
@[simp] theorem State.setOut_memoryValue (s : State) (v : Word) : (s.setOut v).memoryValue = s.memoryValue := rfl
@[simp] theorem State.setOut_targetAddress (s : State) (v : Word) : (s.setOut v).targetAddress = s.targetAddress := rfl
@[simp] theorem State.setOut_units (s : State) (v : Word) : (s.setOut v).units = s.units := rfl
@[simp] theorem State.setOut_phase (s : State) (v : Word) : (s.setOut v).phase = s.phase := rfl
@[simp] theorem State.setOut_pads (s : State) (v : Word) : (s.setOut v).pads = s.pads := rfl
@[simp] theorem State.setOut_ctrls (s : State) (v : Word) : (s.setOut v).ctrls = s.ctrls := rfl
@[simp] theorem State.setOut_sioOe (s : State) (v : Word) : (s.setOut v).sioOe = s.sioOe := rfl
@[simp] theorem State.setOut_fault (s : State) (v : Word) : (s.setOut v).fault = s.fault := rfl
@[simp] theorem State.setOut_turn (s : State) (v : Word) : (s.setOut v).turn = s.turn := rfl
@[simp] theorem State.setOut_turnCount (s : State) (v : Word) : (s.setOut v).turnCount = s.turnCount := rfl
@[simp] theorem State.setOut_drawCount (s : State) (v : Word) : (s.setOut v).drawCount = s.drawCount := rfl
@[simp] theorem State.setOut_unit (s : State) (v : Word) (u' : UnitId) : (s.setOut v).unit u' = s.unit u' := rfl
@[simp] theorem State.setOut_pad (s : State) (v : Word) (n' : Pin) : (s.setOut v).pad n' = s.pad n' := rfl
@[simp] theorem State.setOut_ctrl (s : State) (v : Word) (n' : Pin) : (s.setOut v).ctrl n' = s.ctrl n' := rfl
@[simp] theorem State.setOut_draw (s : State) (v : Word) (k : Nat) : (s.setOut v).draw k = s.draw k := rfl
@[simp] theorem State.setOut_sioOut (s : State) (v : Word) : (s.setOut v).sioOut = v := rfl

@[simp] theorem State.setOe_board (s : State) (v : Word) : (s.setOe v).board = s.board := rfl
@[simp] theorem State.setOe_program (s : State) (v : Word) : (s.setOe v).program = s.program := rfl
@[simp] theorem State.setOe_pc (s : State) (v : Word) : (s.setOe v).pc = s.pc := rfl
@[simp] theorem State.setOe_vars (s : State) (v : Word) : (s.setOe v).vars = s.vars := rfl
@[simp] theorem State.setOe_latch (s : State) (v : Word) : (s.setOe v).latch = s.latch := rfl
@[simp] theorem State.setOe_requested (s : State) (v : Word) : (s.setOe v).requested = s.requested := rfl
@[simp] theorem State.setOe_memoryValue (s : State) (v : Word) : (s.setOe v).memoryValue = s.memoryValue := rfl
@[simp] theorem State.setOe_targetAddress (s : State) (v : Word) : (s.setOe v).targetAddress = s.targetAddress := rfl
@[simp] theorem State.setOe_units (s : State) (v : Word) : (s.setOe v).units = s.units := rfl
@[simp] theorem State.setOe_phase (s : State) (v : Word) : (s.setOe v).phase = s.phase := rfl
@[simp] theorem State.setOe_pads (s : State) (v : Word) : (s.setOe v).pads = s.pads := rfl
@[simp] theorem State.setOe_ctrls (s : State) (v : Word) : (s.setOe v).ctrls = s.ctrls := rfl
@[simp] theorem State.setOe_sioOut (s : State) (v : Word) : (s.setOe v).sioOut = s.sioOut := rfl
@[simp] theorem State.setOe_fault (s : State) (v : Word) : (s.setOe v).fault = s.fault := rfl
@[simp] theorem State.setOe_turn (s : State) (v : Word) : (s.setOe v).turn = s.turn := rfl
@[simp] theorem State.setOe_turnCount (s : State) (v : Word) : (s.setOe v).turnCount = s.turnCount := rfl
@[simp] theorem State.setOe_drawCount (s : State) (v : Word) : (s.setOe v).drawCount = s.drawCount := rfl
@[simp] theorem State.setOe_unit (s : State) (v : Word) (u' : UnitId) : (s.setOe v).unit u' = s.unit u' := rfl
@[simp] theorem State.setOe_pad (s : State) (v : Word) (n' : Pin) : (s.setOe v).pad n' = s.pad n' := rfl
@[simp] theorem State.setOe_ctrl (s : State) (v : Word) (n' : Pin) : (s.setOe v).ctrl n' = s.ctrl n' := rfl
@[simp] theorem State.setOe_draw (s : State) (v : Word) (k : Nat) : (s.setOe v).draw k = s.draw k := rfl
@[simp] theorem State.setOe_sioOe (s : State) (v : Word) : (s.setOe v).sioOe = v := rfl

@[simp] theorem State.setLatch_board (s : State) (v : Word) : (s.setLatch v).board = s.board := rfl
@[simp] theorem State.setLatch_program (s : State) (v : Word) : (s.setLatch v).program = s.program := rfl
@[simp] theorem State.setLatch_pc (s : State) (v : Word) : (s.setLatch v).pc = s.pc := rfl
@[simp] theorem State.setLatch_vars (s : State) (v : Word) : (s.setLatch v).vars = s.vars := rfl
@[simp] theorem State.setLatch_requested (s : State) (v : Word) : (s.setLatch v).requested = s.requested := rfl
@[simp] theorem State.setLatch_memoryValue (s : State) (v : Word) : (s.setLatch v).memoryValue = s.memoryValue := rfl
@[simp] theorem State.setLatch_targetAddress (s : State) (v : Word) : (s.setLatch v).targetAddress = s.targetAddress := rfl
@[simp] theorem State.setLatch_units (s : State) (v : Word) : (s.setLatch v).units = s.units := rfl
@[simp] theorem State.setLatch_phase (s : State) (v : Word) : (s.setLatch v).phase = s.phase := rfl
@[simp] theorem State.setLatch_pads (s : State) (v : Word) : (s.setLatch v).pads = s.pads := rfl
@[simp] theorem State.setLatch_ctrls (s : State) (v : Word) : (s.setLatch v).ctrls = s.ctrls := rfl
@[simp] theorem State.setLatch_sioOut (s : State) (v : Word) : (s.setLatch v).sioOut = s.sioOut := rfl
@[simp] theorem State.setLatch_sioOe (s : State) (v : Word) : (s.setLatch v).sioOe = s.sioOe := rfl
@[simp] theorem State.setLatch_fault (s : State) (v : Word) : (s.setLatch v).fault = s.fault := rfl
@[simp] theorem State.setLatch_turn (s : State) (v : Word) : (s.setLatch v).turn = s.turn := rfl
@[simp] theorem State.setLatch_turnCount (s : State) (v : Word) : (s.setLatch v).turnCount = s.turnCount := rfl
@[simp] theorem State.setLatch_drawCount (s : State) (v : Word) : (s.setLatch v).drawCount = s.drawCount := rfl
@[simp] theorem State.setLatch_unit (s : State) (v : Word) (u' : UnitId) : (s.setLatch v).unit u' = s.unit u' := rfl
@[simp] theorem State.setLatch_pad (s : State) (v : Word) (n' : Pin) : (s.setLatch v).pad n' = s.pad n' := rfl
@[simp] theorem State.setLatch_ctrl (s : State) (v : Word) (n' : Pin) : (s.setLatch v).ctrl n' = s.ctrl n' := rfl
@[simp] theorem State.setLatch_draw (s : State) (v : Word) (k : Nat) : (s.setLatch v).draw k = s.draw k := rfl
@[simp] theorem State.setLatch_latch (s : State) (v : Word) : (s.setLatch v).latch = v := rfl

@[simp] theorem State.setRequested_board (s : State) : s.setRequested.board = s.board := rfl
@[simp] theorem State.setRequested_program (s : State) : s.setRequested.program = s.program := rfl
@[simp] theorem State.setRequested_pc (s : State) : s.setRequested.pc = s.pc := rfl
@[simp] theorem State.setRequested_vars (s : State) : s.setRequested.vars = s.vars := rfl
@[simp] theorem State.setRequested_latch (s : State) : s.setRequested.latch = s.latch := rfl
@[simp] theorem State.setRequested_memoryValue (s : State) : s.setRequested.memoryValue = s.memoryValue := rfl
@[simp] theorem State.setRequested_targetAddress (s : State) : s.setRequested.targetAddress = s.targetAddress := rfl
@[simp] theorem State.setRequested_units (s : State) : s.setRequested.units = s.units := rfl
@[simp] theorem State.setRequested_phase (s : State) : s.setRequested.phase = s.phase := rfl
@[simp] theorem State.setRequested_pads (s : State) : s.setRequested.pads = s.pads := rfl
@[simp] theorem State.setRequested_ctrls (s : State) : s.setRequested.ctrls = s.ctrls := rfl
@[simp] theorem State.setRequested_sioOut (s : State) : s.setRequested.sioOut = s.sioOut := rfl
@[simp] theorem State.setRequested_sioOe (s : State) : s.setRequested.sioOe = s.sioOe := rfl
@[simp] theorem State.setRequested_fault (s : State) : s.setRequested.fault = s.fault := rfl
@[simp] theorem State.setRequested_turn (s : State) : s.setRequested.turn = s.turn := rfl
@[simp] theorem State.setRequested_turnCount (s : State) : s.setRequested.turnCount = s.turnCount := rfl
@[simp] theorem State.setRequested_drawCount (s : State) : s.setRequested.drawCount = s.drawCount := rfl
@[simp] theorem State.setRequested_unit (s : State) (u' : UnitId) : s.setRequested.unit u' = s.unit u' := rfl
@[simp] theorem State.setRequested_pad (s : State) (n' : Pin) : s.setRequested.pad n' = s.pad n' := rfl
@[simp] theorem State.setRequested_ctrl (s : State) (n' : Pin) : s.setRequested.ctrl n' = s.ctrl n' := rfl
@[simp] theorem State.setRequested_draw (s : State) (k : Nat) : s.setRequested.draw k = s.draw k := rfl
@[simp] theorem State.setRequested_requested (s : State) : s.setRequested.requested = true := rfl

@[simp] theorem State.setMemoryValue_board (s : State) (b : Byte) : (s.setMemoryValue b).board = s.board := rfl
@[simp] theorem State.setMemoryValue_program (s : State) (b : Byte) : (s.setMemoryValue b).program = s.program := rfl
@[simp] theorem State.setMemoryValue_pc (s : State) (b : Byte) : (s.setMemoryValue b).pc = s.pc := rfl
@[simp] theorem State.setMemoryValue_vars (s : State) (b : Byte) : (s.setMemoryValue b).vars = s.vars := rfl
@[simp] theorem State.setMemoryValue_latch (s : State) (b : Byte) : (s.setMemoryValue b).latch = s.latch := rfl
@[simp] theorem State.setMemoryValue_requested (s : State) (b : Byte) : (s.setMemoryValue b).requested = s.requested := rfl
@[simp] theorem State.setMemoryValue_targetAddress (s : State) (b : Byte) : (s.setMemoryValue b).targetAddress = s.targetAddress := rfl
@[simp] theorem State.setMemoryValue_units (s : State) (b : Byte) : (s.setMemoryValue b).units = s.units := rfl
@[simp] theorem State.setMemoryValue_phase (s : State) (b : Byte) : (s.setMemoryValue b).phase = s.phase := rfl
@[simp] theorem State.setMemoryValue_pads (s : State) (b : Byte) : (s.setMemoryValue b).pads = s.pads := rfl
@[simp] theorem State.setMemoryValue_ctrls (s : State) (b : Byte) : (s.setMemoryValue b).ctrls = s.ctrls := rfl
@[simp] theorem State.setMemoryValue_sioOut (s : State) (b : Byte) : (s.setMemoryValue b).sioOut = s.sioOut := rfl
@[simp] theorem State.setMemoryValue_sioOe (s : State) (b : Byte) : (s.setMemoryValue b).sioOe = s.sioOe := rfl
@[simp] theorem State.setMemoryValue_fault (s : State) (b : Byte) : (s.setMemoryValue b).fault = s.fault := rfl
@[simp] theorem State.setMemoryValue_turn (s : State) (b : Byte) : (s.setMemoryValue b).turn = s.turn := rfl
@[simp] theorem State.setMemoryValue_turnCount (s : State) (b : Byte) : (s.setMemoryValue b).turnCount = s.turnCount := rfl
@[simp] theorem State.setMemoryValue_drawCount (s : State) (b : Byte) : (s.setMemoryValue b).drawCount = s.drawCount := rfl
@[simp] theorem State.setMemoryValue_unit (s : State) (b : Byte) (u' : UnitId) : (s.setMemoryValue b).unit u' = s.unit u' := rfl
@[simp] theorem State.setMemoryValue_pad (s : State) (b : Byte) (n' : Pin) : (s.setMemoryValue b).pad n' = s.pad n' := rfl
@[simp] theorem State.setMemoryValue_ctrl (s : State) (b : Byte) (n' : Pin) : (s.setMemoryValue b).ctrl n' = s.ctrl n' := rfl
@[simp] theorem State.setMemoryValue_draw (s : State) (b : Byte) (k : Nat) : (s.setMemoryValue b).draw k = s.draw k := rfl
@[simp] theorem State.setMemoryValue_memoryValue (s : State) (b : Byte) : (s.setMemoryValue b).memoryValue = some b := rfl

@[simp] theorem State.setTargetAddress_board (s : State) (a : BusAddr) : (s.setTargetAddress a).board = s.board := rfl
@[simp] theorem State.setTargetAddress_program (s : State) (a : BusAddr) : (s.setTargetAddress a).program = s.program := rfl
@[simp] theorem State.setTargetAddress_pc (s : State) (a : BusAddr) : (s.setTargetAddress a).pc = s.pc := rfl
@[simp] theorem State.setTargetAddress_vars (s : State) (a : BusAddr) : (s.setTargetAddress a).vars = s.vars := rfl
@[simp] theorem State.setTargetAddress_latch (s : State) (a : BusAddr) : (s.setTargetAddress a).latch = s.latch := rfl
@[simp] theorem State.setTargetAddress_requested (s : State) (a : BusAddr) : (s.setTargetAddress a).requested = s.requested := rfl
@[simp] theorem State.setTargetAddress_memoryValue (s : State) (a : BusAddr) : (s.setTargetAddress a).memoryValue = s.memoryValue := rfl
@[simp] theorem State.setTargetAddress_units (s : State) (a : BusAddr) : (s.setTargetAddress a).units = s.units := rfl
@[simp] theorem State.setTargetAddress_phase (s : State) (a : BusAddr) : (s.setTargetAddress a).phase = s.phase := rfl
@[simp] theorem State.setTargetAddress_pads (s : State) (a : BusAddr) : (s.setTargetAddress a).pads = s.pads := rfl
@[simp] theorem State.setTargetAddress_ctrls (s : State) (a : BusAddr) : (s.setTargetAddress a).ctrls = s.ctrls := rfl
@[simp] theorem State.setTargetAddress_sioOut (s : State) (a : BusAddr) : (s.setTargetAddress a).sioOut = s.sioOut := rfl
@[simp] theorem State.setTargetAddress_sioOe (s : State) (a : BusAddr) : (s.setTargetAddress a).sioOe = s.sioOe := rfl
@[simp] theorem State.setTargetAddress_fault (s : State) (a : BusAddr) : (s.setTargetAddress a).fault = s.fault := rfl
@[simp] theorem State.setTargetAddress_turn (s : State) (a : BusAddr) : (s.setTargetAddress a).turn = s.turn := rfl
@[simp] theorem State.setTargetAddress_turnCount (s : State) (a : BusAddr) : (s.setTargetAddress a).turnCount = s.turnCount := rfl
@[simp] theorem State.setTargetAddress_drawCount (s : State) (a : BusAddr) : (s.setTargetAddress a).drawCount = s.drawCount := rfl
@[simp] theorem State.setTargetAddress_unit (s : State) (a : BusAddr) (u' : UnitId) : (s.setTargetAddress a).unit u' = s.unit u' := rfl
@[simp] theorem State.setTargetAddress_pad (s : State) (a : BusAddr) (n' : Pin) : (s.setTargetAddress a).pad n' = s.pad n' := rfl
@[simp] theorem State.setTargetAddress_ctrl (s : State) (a : BusAddr) (n' : Pin) : (s.setTargetAddress a).ctrl n' = s.ctrl n' := rfl
@[simp] theorem State.setTargetAddress_draw (s : State) (a : BusAddr) (k : Nat) : (s.setTargetAddress a).draw k = s.draw k := rfl
@[simp] theorem State.setTargetAddress_targetAddress (s : State) (a : BusAddr) : (s.setTargetAddress a).targetAddress = a := rfl

@[simp] theorem State.setFault_board (s : State) (f : Fault) : (s.setFault f).board = s.board := rfl
@[simp] theorem State.setFault_program (s : State) (f : Fault) : (s.setFault f).program = s.program := rfl
@[simp] theorem State.setFault_pc (s : State) (f : Fault) : (s.setFault f).pc = s.pc := rfl
@[simp] theorem State.setFault_vars (s : State) (f : Fault) : (s.setFault f).vars = s.vars := rfl
@[simp] theorem State.setFault_latch (s : State) (f : Fault) : (s.setFault f).latch = s.latch := rfl
@[simp] theorem State.setFault_requested (s : State) (f : Fault) : (s.setFault f).requested = s.requested := rfl
@[simp] theorem State.setFault_memoryValue (s : State) (f : Fault) : (s.setFault f).memoryValue = s.memoryValue := rfl
@[simp] theorem State.setFault_targetAddress (s : State) (f : Fault) : (s.setFault f).targetAddress = s.targetAddress := rfl
@[simp] theorem State.setFault_units (s : State) (f : Fault) : (s.setFault f).units = s.units := rfl
@[simp] theorem State.setFault_phase (s : State) (f : Fault) : (s.setFault f).phase = s.phase := rfl
@[simp] theorem State.setFault_pads (s : State) (f : Fault) : (s.setFault f).pads = s.pads := rfl
@[simp] theorem State.setFault_ctrls (s : State) (f : Fault) : (s.setFault f).ctrls = s.ctrls := rfl
@[simp] theorem State.setFault_sioOut (s : State) (f : Fault) : (s.setFault f).sioOut = s.sioOut := rfl
@[simp] theorem State.setFault_sioOe (s : State) (f : Fault) : (s.setFault f).sioOe = s.sioOe := rfl
@[simp] theorem State.setFault_turn (s : State) (f : Fault) : (s.setFault f).turn = s.turn := rfl
@[simp] theorem State.setFault_turnCount (s : State) (f : Fault) : (s.setFault f).turnCount = s.turnCount := rfl
@[simp] theorem State.setFault_drawCount (s : State) (f : Fault) : (s.setFault f).drawCount = s.drawCount := rfl
@[simp] theorem State.setFault_unit (s : State) (f : Fault) (u' : UnitId) : (s.setFault f).unit u' = s.unit u' := rfl
@[simp] theorem State.setFault_pad (s : State) (f : Fault) (n' : Pin) : (s.setFault f).pad n' = s.pad n' := rfl
@[simp] theorem State.setFault_ctrl (s : State) (f : Fault) (n' : Pin) : (s.setFault f).ctrl n' = s.ctrl n' := rfl
@[simp] theorem State.setFault_draw (s : State) (f : Fault) (k : Nat) : (s.setFault f).draw k = s.draw k := rfl
@[simp] theorem State.setFault_fault (s : State) (f : Fault) : (s.setFault f).fault = some f := rfl

@[simp] theorem State.drew_board (s : State) (n : Nat) : (s.drew n).board = s.board := rfl
@[simp] theorem State.drew_program (s : State) (n : Nat) : (s.drew n).program = s.program := rfl
@[simp] theorem State.drew_pc (s : State) (n : Nat) : (s.drew n).pc = s.pc := rfl
@[simp] theorem State.drew_vars (s : State) (n : Nat) : (s.drew n).vars = s.vars := rfl
@[simp] theorem State.drew_latch (s : State) (n : Nat) : (s.drew n).latch = s.latch := rfl
@[simp] theorem State.drew_requested (s : State) (n : Nat) : (s.drew n).requested = s.requested := rfl
@[simp] theorem State.drew_memoryValue (s : State) (n : Nat) : (s.drew n).memoryValue = s.memoryValue := rfl
@[simp] theorem State.drew_targetAddress (s : State) (n : Nat) : (s.drew n).targetAddress = s.targetAddress := rfl
@[simp] theorem State.drew_units (s : State) (n : Nat) : (s.drew n).units = s.units := rfl
@[simp] theorem State.drew_phase (s : State) (n : Nat) : (s.drew n).phase = s.phase := rfl
@[simp] theorem State.drew_pads (s : State) (n : Nat) : (s.drew n).pads = s.pads := rfl
@[simp] theorem State.drew_ctrls (s : State) (n : Nat) : (s.drew n).ctrls = s.ctrls := rfl
@[simp] theorem State.drew_sioOut (s : State) (n : Nat) : (s.drew n).sioOut = s.sioOut := rfl
@[simp] theorem State.drew_sioOe (s : State) (n : Nat) : (s.drew n).sioOe = s.sioOe := rfl
@[simp] theorem State.drew_fault (s : State) (n : Nat) : (s.drew n).fault = s.fault := rfl
@[simp] theorem State.drew_turn (s : State) (n : Nat) : (s.drew n).turn = s.turn := rfl
@[simp] theorem State.drew_turnCount (s : State) (n : Nat) : (s.drew n).turnCount = s.turnCount := rfl
@[simp] theorem State.drew_unit (s : State) (n : Nat) (u' : UnitId) : (s.drew n).unit u' = s.unit u' := rfl
@[simp] theorem State.drew_pad (s : State) (n : Nat) (n' : Pin) : (s.drew n).pad n' = s.pad n' := rfl
@[simp] theorem State.drew_ctrl (s : State) (n : Nat) (n' : Pin) : (s.drew n).ctrl n' = s.ctrl n' := rfl
@[simp] theorem State.drew_drawCount (s : State) (n : Nat) : (s.drew n).drawCount = s.drawCount + n := rfl

@[simp] theorem State.advance_board (s : State) : s.advance.board = s.board := rfl
@[simp] theorem State.advance_program (s : State) : s.advance.program = s.program := rfl
@[simp] theorem State.advance_vars (s : State) : s.advance.vars = s.vars := rfl
@[simp] theorem State.advance_latch (s : State) : s.advance.latch = s.latch := rfl
@[simp] theorem State.advance_requested (s : State) : s.advance.requested = s.requested := rfl
@[simp] theorem State.advance_memoryValue (s : State) : s.advance.memoryValue = s.memoryValue := rfl
@[simp] theorem State.advance_targetAddress (s : State) : s.advance.targetAddress = s.targetAddress := rfl
@[simp] theorem State.advance_units (s : State) : s.advance.units = s.units := rfl
@[simp] theorem State.advance_phase (s : State) : s.advance.phase = s.phase := rfl
@[simp] theorem State.advance_pads (s : State) : s.advance.pads = s.pads := rfl
@[simp] theorem State.advance_ctrls (s : State) : s.advance.ctrls = s.ctrls := rfl
@[simp] theorem State.advance_sioOut (s : State) : s.advance.sioOut = s.sioOut := rfl
@[simp] theorem State.advance_sioOe (s : State) : s.advance.sioOe = s.sioOe := rfl
@[simp] theorem State.advance_fault (s : State) : s.advance.fault = s.fault := rfl
@[simp] theorem State.advance_turn (s : State) : s.advance.turn = s.turn := rfl
@[simp] theorem State.advance_turnCount (s : State) : s.advance.turnCount = s.turnCount := rfl
@[simp] theorem State.advance_drawCount (s : State) : s.advance.drawCount = s.drawCount := rfl
@[simp] theorem State.advance_unit (s : State) (u' : UnitId) : s.advance.unit u' = s.unit u' := rfl
@[simp] theorem State.advance_pad (s : State) (n' : Pin) : s.advance.pad n' = s.pad n' := rfl
@[simp] theorem State.advance_ctrl (s : State) (n' : Pin) : s.advance.ctrl n' = s.ctrl n' := rfl
@[simp] theorem State.advance_draw (s : State) (k : Nat) : s.advance.draw k = s.draw k := rfl
@[simp] theorem State.advance_pc (s : State) : s.advance.pc = ⟨s.pc.stmt, s.pc.step + 1⟩ := rfl

@[simp] theorem State.finish_board (s : State) : s.finish.board = s.board := rfl
@[simp] theorem State.finish_program (s : State) : s.finish.program = s.program := rfl
@[simp] theorem State.finish_vars (s : State) : s.finish.vars = s.vars := rfl
@[simp] theorem State.finish_latch (s : State) : s.finish.latch = s.latch := rfl
@[simp] theorem State.finish_requested (s : State) : s.finish.requested = s.requested := rfl
@[simp] theorem State.finish_memoryValue (s : State) : s.finish.memoryValue = s.memoryValue := rfl
@[simp] theorem State.finish_targetAddress (s : State) : s.finish.targetAddress = s.targetAddress := rfl
@[simp] theorem State.finish_units (s : State) : s.finish.units = s.units := rfl
@[simp] theorem State.finish_phase (s : State) : s.finish.phase = s.phase := rfl
@[simp] theorem State.finish_pads (s : State) : s.finish.pads = s.pads := rfl
@[simp] theorem State.finish_ctrls (s : State) : s.finish.ctrls = s.ctrls := rfl
@[simp] theorem State.finish_sioOut (s : State) : s.finish.sioOut = s.sioOut := rfl
@[simp] theorem State.finish_sioOe (s : State) : s.finish.sioOe = s.sioOe := rfl
@[simp] theorem State.finish_fault (s : State) : s.finish.fault = s.fault := rfl
@[simp] theorem State.finish_turn (s : State) : s.finish.turn = s.turn := rfl
@[simp] theorem State.finish_turnCount (s : State) : s.finish.turnCount = s.turnCount := rfl
@[simp] theorem State.finish_drawCount (s : State) : s.finish.drawCount = s.drawCount := rfl
@[simp] theorem State.finish_unit (s : State) (u' : UnitId) : s.finish.unit u' = s.unit u' := rfl
@[simp] theorem State.finish_pad (s : State) (n' : Pin) : s.finish.pad n' = s.pad n' := rfl
@[simp] theorem State.finish_ctrl (s : State) (n' : Pin) : s.finish.ctrl n' = s.ctrl n' := rfl
@[simp] theorem State.finish_draw (s : State) (k : Nat) : s.finish.draw k = s.draw k := rfl
@[simp] theorem State.finish_pc (s : State) : s.finish.pc = ⟨s.pc.stmt + 1, 0⟩ := rfl

@[simp] theorem State.jump_board (s : State) (i : Nat) : (s.jump i).board = s.board := rfl
@[simp] theorem State.jump_program (s : State) (i : Nat) : (s.jump i).program = s.program := rfl
@[simp] theorem State.jump_vars (s : State) (i : Nat) : (s.jump i).vars = s.vars := rfl
@[simp] theorem State.jump_latch (s : State) (i : Nat) : (s.jump i).latch = s.latch := rfl
@[simp] theorem State.jump_requested (s : State) (i : Nat) : (s.jump i).requested = s.requested := rfl
@[simp] theorem State.jump_memoryValue (s : State) (i : Nat) : (s.jump i).memoryValue = s.memoryValue := rfl
@[simp] theorem State.jump_targetAddress (s : State) (i : Nat) : (s.jump i).targetAddress = s.targetAddress := rfl
@[simp] theorem State.jump_units (s : State) (i : Nat) : (s.jump i).units = s.units := rfl
@[simp] theorem State.jump_phase (s : State) (i : Nat) : (s.jump i).phase = s.phase := rfl
@[simp] theorem State.jump_pads (s : State) (i : Nat) : (s.jump i).pads = s.pads := rfl
@[simp] theorem State.jump_ctrls (s : State) (i : Nat) : (s.jump i).ctrls = s.ctrls := rfl
@[simp] theorem State.jump_sioOut (s : State) (i : Nat) : (s.jump i).sioOut = s.sioOut := rfl
@[simp] theorem State.jump_sioOe (s : State) (i : Nat) : (s.jump i).sioOe = s.sioOe := rfl
@[simp] theorem State.jump_fault (s : State) (i : Nat) : (s.jump i).fault = s.fault := rfl
@[simp] theorem State.jump_turn (s : State) (i : Nat) : (s.jump i).turn = s.turn := rfl
@[simp] theorem State.jump_turnCount (s : State) (i : Nat) : (s.jump i).turnCount = s.turnCount := rfl
@[simp] theorem State.jump_drawCount (s : State) (i : Nat) : (s.jump i).drawCount = s.drawCount := rfl
@[simp] theorem State.jump_unit (s : State) (i : Nat) (u' : UnitId) : (s.jump i).unit u' = s.unit u' := rfl
@[simp] theorem State.jump_pad (s : State) (i : Nat) (n' : Pin) : (s.jump i).pad n' = s.pad n' := rfl
@[simp] theorem State.jump_ctrl (s : State) (i : Nat) (n' : Pin) : (s.jump i).ctrl n' = s.ctrl n' := rfl
@[simp] theorem State.jump_draw (s : State) (i : Nat) (k : Nat) : (s.jump i).draw k = s.draw k := rfl
@[simp] theorem State.jump_pc (s : State) (i : Nat) : (s.jump i).pc = ⟨i, 0⟩ := rfl

@[simp] theorem State.assign_board (s : State) (x : Option Var) (v : Val) : (s.assign x v).board = s.board := by cases x <;> rfl
@[simp] theorem State.assign_program (s : State) (x : Option Var) (v : Val) : (s.assign x v).program = s.program := by cases x <;> rfl
@[simp] theorem State.assign_pc (s : State) (x : Option Var) (v : Val) : (s.assign x v).pc = s.pc := by cases x <;> rfl
@[simp] theorem State.assign_latch (s : State) (x : Option Var) (v : Val) : (s.assign x v).latch = s.latch := by cases x <;> rfl
@[simp] theorem State.assign_requested (s : State) (x : Option Var) (v : Val) : (s.assign x v).requested = s.requested := by cases x <;> rfl
@[simp] theorem State.assign_memoryValue (s : State) (x : Option Var) (v : Val) : (s.assign x v).memoryValue = s.memoryValue := by cases x <;> rfl
@[simp] theorem State.assign_targetAddress (s : State) (x : Option Var) (v : Val) : (s.assign x v).targetAddress = s.targetAddress := by cases x <;> rfl
@[simp] theorem State.assign_units (s : State) (x : Option Var) (v : Val) : (s.assign x v).units = s.units := by cases x <;> rfl
@[simp] theorem State.assign_phase (s : State) (x : Option Var) (v : Val) : (s.assign x v).phase = s.phase := by cases x <;> rfl
@[simp] theorem State.assign_pads (s : State) (x : Option Var) (v : Val) : (s.assign x v).pads = s.pads := by cases x <;> rfl
@[simp] theorem State.assign_ctrls (s : State) (x : Option Var) (v : Val) : (s.assign x v).ctrls = s.ctrls := by cases x <;> rfl
@[simp] theorem State.assign_sioOut (s : State) (x : Option Var) (v : Val) : (s.assign x v).sioOut = s.sioOut := by cases x <;> rfl
@[simp] theorem State.assign_sioOe (s : State) (x : Option Var) (v : Val) : (s.assign x v).sioOe = s.sioOe := by cases x <;> rfl
@[simp] theorem State.assign_fault (s : State) (x : Option Var) (v : Val) : (s.assign x v).fault = s.fault := by cases x <;> rfl
@[simp] theorem State.assign_turn (s : State) (x : Option Var) (v : Val) : (s.assign x v).turn = s.turn := by cases x <;> rfl
@[simp] theorem State.assign_turnCount (s : State) (x : Option Var) (v : Val) : (s.assign x v).turnCount = s.turnCount := by cases x <;> rfl
@[simp] theorem State.assign_drawCount (s : State) (x : Option Var) (v : Val) : (s.assign x v).drawCount = s.drawCount := by cases x <;> rfl
@[simp] theorem State.assign_unit (s : State) (x : Option Var) (v : Val) (u' : UnitId) : (s.assign x v).unit u' = s.unit u' := by cases x <;> rfl
@[simp] theorem State.assign_pad (s : State) (x : Option Var) (v : Val) (n' : Pin) : (s.assign x v).pad n' = s.pad n' := by cases x <;> rfl
@[simp] theorem State.assign_ctrl (s : State) (x : Option Var) (v : Val) (n' : Pin) : (s.assign x v).ctrl n' = s.ctrl n' := by cases x <;> rfl
@[simp] theorem State.assign_draw (s : State) (x : Option Var) (v : Val) (k : Nat) : (s.assign x v).draw k = s.draw k := by cases x <;> rfl

@[simp] theorem State.ret_board (s : State) (x : Option Var) (v : Val) : (s.ret x v).board = s.board := by cases x <;> rfl
@[simp] theorem State.ret_program (s : State) (x : Option Var) (v : Val) : (s.ret x v).program = s.program := by cases x <;> rfl
@[simp] theorem State.ret_latch (s : State) (x : Option Var) (v : Val) : (s.ret x v).latch = s.latch := by cases x <;> rfl
@[simp] theorem State.ret_requested (s : State) (x : Option Var) (v : Val) : (s.ret x v).requested = s.requested := by cases x <;> rfl
@[simp] theorem State.ret_memoryValue (s : State) (x : Option Var) (v : Val) : (s.ret x v).memoryValue = s.memoryValue := by cases x <;> rfl
@[simp] theorem State.ret_targetAddress (s : State) (x : Option Var) (v : Val) : (s.ret x v).targetAddress = s.targetAddress := by cases x <;> rfl
@[simp] theorem State.ret_units (s : State) (x : Option Var) (v : Val) : (s.ret x v).units = s.units := by cases x <;> rfl
@[simp] theorem State.ret_phase (s : State) (x : Option Var) (v : Val) : (s.ret x v).phase = s.phase := by cases x <;> rfl
@[simp] theorem State.ret_pads (s : State) (x : Option Var) (v : Val) : (s.ret x v).pads = s.pads := by cases x <;> rfl
@[simp] theorem State.ret_ctrls (s : State) (x : Option Var) (v : Val) : (s.ret x v).ctrls = s.ctrls := by cases x <;> rfl
@[simp] theorem State.ret_sioOut (s : State) (x : Option Var) (v : Val) : (s.ret x v).sioOut = s.sioOut := by cases x <;> rfl
@[simp] theorem State.ret_sioOe (s : State) (x : Option Var) (v : Val) : (s.ret x v).sioOe = s.sioOe := by cases x <;> rfl
@[simp] theorem State.ret_fault (s : State) (x : Option Var) (v : Val) : (s.ret x v).fault = s.fault := by cases x <;> rfl
@[simp] theorem State.ret_turn (s : State) (x : Option Var) (v : Val) : (s.ret x v).turn = s.turn := by cases x <;> rfl
@[simp] theorem State.ret_turnCount (s : State) (x : Option Var) (v : Val) : (s.ret x v).turnCount = s.turnCount := by cases x <;> rfl
@[simp] theorem State.ret_drawCount (s : State) (x : Option Var) (v : Val) : (s.ret x v).drawCount = s.drawCount := by cases x <;> rfl
@[simp] theorem State.ret_unit (s : State) (x : Option Var) (v : Val) (u' : UnitId) : (s.ret x v).unit u' = s.unit u' := by cases x <;> rfl
@[simp] theorem State.ret_pad (s : State) (x : Option Var) (v : Val) (n' : Pin) : (s.ret x v).pad n' = s.pad n' := by cases x <;> rfl
@[simp] theorem State.ret_ctrl (s : State) (x : Option Var) (v : Val) (n' : Pin) : (s.ret x v).ctrl n' = s.ctrl n' := by cases x <;> rfl
@[simp] theorem State.ret_draw (s : State) (x : Option Var) (v : Val) (k : Nat) : (s.ret x v).draw k = s.draw k := by cases x <;> rfl

@[simp] theorem State.assign_none (s : State) (v : Val) : s.assign .none v = s := rfl
@[simp] theorem State.assign_some_vars (s : State) (x : Var) (v : Val) :
    (s.assign (some x) v).vars = assignVar x v s.vars := rfl
@[simp] theorem State.ret_pc (s : State) (x : Option Var) (v : Val) : (s.ret x v).pc = ⟨s.pc.stmt + 1, 0⟩ := by
  cases x <;> rfl
@[simp] theorem State.ret_vars (s : State) (x : Option Var) (v : Val) : (s.ret x v).vars = (s.assign x v).vars := by
  cases x <;> rfl

@[simp] theorem State.noResult_board (s : State) (x : Option Var) : (s.noResult x).board = s.board := by cases x <;> rfl
@[simp] theorem State.noResult_program (s : State) (x : Option Var) : (s.noResult x).program = s.program := by cases x <;> rfl
@[simp] theorem State.noResult_latch (s : State) (x : Option Var) : (s.noResult x).latch = s.latch := by cases x <;> rfl
@[simp] theorem State.noResult_requested (s : State) (x : Option Var) : (s.noResult x).requested = s.requested := by cases x <;> rfl
@[simp] theorem State.noResult_memoryValue (s : State) (x : Option Var) : (s.noResult x).memoryValue = s.memoryValue := by cases x <;> rfl
@[simp] theorem State.noResult_targetAddress (s : State) (x : Option Var) : (s.noResult x).targetAddress = s.targetAddress := by cases x <;> rfl
@[simp] theorem State.noResult_units (s : State) (x : Option Var) : (s.noResult x).units = s.units := by cases x <;> rfl
@[simp] theorem State.noResult_phase (s : State) (x : Option Var) : (s.noResult x).phase = s.phase := by cases x <;> rfl
@[simp] theorem State.noResult_pads (s : State) (x : Option Var) : (s.noResult x).pads = s.pads := by cases x <;> rfl
@[simp] theorem State.noResult_ctrls (s : State) (x : Option Var) : (s.noResult x).ctrls = s.ctrls := by cases x <;> rfl
@[simp] theorem State.noResult_sioOut (s : State) (x : Option Var) : (s.noResult x).sioOut = s.sioOut := by cases x <;> rfl
@[simp] theorem State.noResult_sioOe (s : State) (x : Option Var) : (s.noResult x).sioOe = s.sioOe := by cases x <;> rfl
@[simp] theorem State.noResult_fault (s : State) (x : Option Var) : (s.noResult x).fault = s.fault := by cases x <;> rfl
@[simp] theorem State.noResult_turn (s : State) (x : Option Var) : (s.noResult x).turn = s.turn := by cases x <;> rfl
@[simp] theorem State.noResult_turnCount (s : State) (x : Option Var) : (s.noResult x).turnCount = s.turnCount := by cases x <;> rfl
@[simp] theorem State.noResult_unit (s : State) (x : Option Var) (u' : UnitId) : (s.noResult x).unit u' = s.unit u' := by cases x <;> rfl
@[simp] theorem State.noResult_pad (s : State) (x : Option Var) (n' : Pin) : (s.noResult x).pad n' = s.pad n' := by cases x <;> rfl
@[simp] theorem State.noResult_ctrl (s : State) (x : Option Var) (n' : Pin) : (s.noResult x).ctrl n' = s.ctrl n' := by cases x <;> rfl
@[simp] theorem State.noResult_pc (s : State) (x : Option Var) : (s.noResult x).pc = s.pc := by cases x <;> rfl
@[simp] theorem State.noResult_none (s : State) : s.noResult .none = s := rfl

@[simp] theorem State.retNone_board (s : State) (x : Option Var) : (s.retNone x).board = s.board := by cases x <;> rfl
@[simp] theorem State.retNone_program (s : State) (x : Option Var) : (s.retNone x).program = s.program := by cases x <;> rfl
@[simp] theorem State.retNone_latch (s : State) (x : Option Var) : (s.retNone x).latch = s.latch := by cases x <;> rfl
@[simp] theorem State.retNone_requested (s : State) (x : Option Var) : (s.retNone x).requested = s.requested := by cases x <;> rfl
@[simp] theorem State.retNone_memoryValue (s : State) (x : Option Var) : (s.retNone x).memoryValue = s.memoryValue := by cases x <;> rfl
@[simp] theorem State.retNone_targetAddress (s : State) (x : Option Var) : (s.retNone x).targetAddress = s.targetAddress := by cases x <;> rfl
@[simp] theorem State.retNone_units (s : State) (x : Option Var) : (s.retNone x).units = s.units := by cases x <;> rfl
@[simp] theorem State.retNone_phase (s : State) (x : Option Var) : (s.retNone x).phase = s.phase := by cases x <;> rfl
@[simp] theorem State.retNone_pads (s : State) (x : Option Var) : (s.retNone x).pads = s.pads := by cases x <;> rfl
@[simp] theorem State.retNone_ctrls (s : State) (x : Option Var) : (s.retNone x).ctrls = s.ctrls := by cases x <;> rfl
@[simp] theorem State.retNone_sioOut (s : State) (x : Option Var) : (s.retNone x).sioOut = s.sioOut := by cases x <;> rfl
@[simp] theorem State.retNone_sioOe (s : State) (x : Option Var) : (s.retNone x).sioOe = s.sioOe := by cases x <;> rfl
@[simp] theorem State.retNone_fault (s : State) (x : Option Var) : (s.retNone x).fault = s.fault := by cases x <;> rfl
@[simp] theorem State.retNone_turn (s : State) (x : Option Var) : (s.retNone x).turn = s.turn := by cases x <;> rfl
@[simp] theorem State.retNone_turnCount (s : State) (x : Option Var) : (s.retNone x).turnCount = s.turnCount := by cases x <;> rfl
@[simp] theorem State.retNone_unit (s : State) (x : Option Var) (u' : UnitId) : (s.retNone x).unit u' = s.unit u' := by cases x <;> rfl
@[simp] theorem State.retNone_pad (s : State) (x : Option Var) (n' : Pin) : (s.retNone x).pad n' = s.pad n' := by cases x <;> rfl
@[simp] theorem State.retNone_ctrl (s : State) (x : Option Var) (n' : Pin) : (s.retNone x).ctrl n' = s.ctrl n' := by cases x <;> rfl
@[simp] theorem State.retNone_pc (s : State) (x : Option Var) : (s.retNone x).pc = ⟨s.pc.stmt + 1, 0⟩ := by cases x <;> rfl
@[simp] theorem State.retNone_vars (s : State) (x : Option Var) : (s.retNone x).vars = (s.noResult x).vars := rfl
@[simp] theorem State.retNone_drawCount (s : State) (x : Option Var) : (s.retNone x).drawCount = (s.noResult x).drawCount := rfl
@[simp] theorem State.retNone_none (s : State) : s.retNone .none = s.finish := rfl
@[simp] theorem State.drew_draw (s : State) (n k : Nat) : (s.drew n).draw k = s.draw (n + k) := by
  simp [State.draw, State.drew, Nat.add_assoc]

@[simp] theorem State.unit_setUnit_self (s : State) (u : UnitId) (un : UnitState) : (s.setUnit u un).unit u = un := by
  simp [State.unit, State.setUnit]

theorem State.unit_setUnit_of_ne (s : State) (u u' : UnitId) (un : UnitState) (h : u' ≠ u) :
    (s.setUnit u un).unit u' = s.unit u' := by
  have h' : u.val ≠ u'.val := fun e => h (Fin.ext e.symm)
  simp [State.unit, State.setUnit, h']

theorem State.unit_setUnit (s : State) (u u' : UnitId) (un : UnitState) :
    (s.setUnit u un).unit u' = if u' = u then un else s.unit u' := by
  by_cases h : u' = u
  · subst h; simp
  · simp [h, State.unit_setUnit_of_ne]

@[simp] theorem State.pad_setPad_self (s : State) (n : Pin) (v : Word) : (s.setPad n v).pad n = v := by
  simp [State.pad, State.setPad]

theorem State.pad_setPad (s : State) (n n' : Pin) (v : Word) :
    (s.setPad n v).pad n' = if n' = n then v else s.pad n' := by
  by_cases h : n' = n
  · subst h; simp
  · have h' : n.val ≠ n'.val := fun e => h (Fin.ext e.symm)
    simp [h, State.pad, State.setPad, h']

@[simp] theorem State.ctrl_setCtrl_self (s : State) (n : Pin) (v : Word) : (s.setCtrl n v).ctrl n = v := by
  simp [State.ctrl, State.setCtrl]

theorem State.ctrl_setCtrl (s : State) (n n' : Pin) (v : Word) :
    (s.setCtrl n v).ctrl n' = if n' = n then v else s.ctrl n' := by
  by_cases h : n' = n
  · subst h; simp
  · have h' : n.val ≠ n'.val := fun e => h (Fin.ext e.symm)
    simp [h, State.ctrl, State.setCtrl, h']

theorem otherUnit_ne (u : UnitId) : otherUnit u ≠ u := by revert u; decide

@[simp] theorem otherUnit_otherUnit (u : UnitId) : otherUnit (otherUnit u) = u := by revert u; decide

theorem eq_or_eq_otherUnit (u c : UnitId) : u = c ∨ u = otherUnit c := by revert u c; decide

/-- Two states with the same fields, the vectors compared by register, are the same. -/
theorem State.ext_registers {s t : State} (hb : s.board = t.board) (hp : s.program = t.program) (hpc : s.pc = t.pc)
    (hv : s.vars = t.vars) (hl : s.latch = t.latch) (hr : s.requested = t.requested)
    (hm : s.memoryValue = t.memoryValue) (ha : s.targetAddress = t.targetAddress) (hu : ∀ u, s.unit u = t.unit u)
    (hph : s.phase = t.phase) (hpad : ∀ n, s.pad n = t.pad n) (hctrl : ∀ n, s.ctrl n = t.ctrl n)
    (ho : s.sioOut = t.sioOut) (hoe : s.sioOe = t.sioOe) (hf : s.fault = t.fault) (ht : s.turn = t.turn)
    (htc : s.turnCount = t.turnCount) (hd : s.drawCount = t.drawCount) : s = t := by
  have eu : s.units = t.units := Vector.ext fun i hi => hu ⟨i, hi⟩
  have ep : s.pads = t.pads := Vector.ext fun i hi => hpad ⟨i, hi⟩
  have ec : s.ctrls = t.ctrls := Vector.ext fun i hi => hctrl ⟨i, hi⟩
  cases s; cases t; simp_all

end Machine
end Sys2Proof
end

