-- ==== Sys2Proof/Laws/Ops.lean ====
section
/-! SUPPORT. What each shared operation of a CPU step can answer, said once: fault entry, operand evaluation, one read, one
write. -/

namespace Sys2Proof
namespace Machine

/-! ## Fault entry -/

theorem raise_of_none {s : State} (h : s.fault = .none) (f : Fault) : raise f s = .next (s.setFault f) := by
  simp [raise, h]

theorem raise_ne_refused (f : Fault) (s : State) (r : Refusal) : raise f s ≠ .refused r := by
  unfold raise; split <;> simp

/-- A fault entry changes FAULT and nothing else. -/
theorem raise_next {f : Fault} {s t : State} (h : raise f s = .next t) : t = s ∨ t = s.setFault f := by
  unfold raise at h
  split at h <;> simp_all

/-- `o` is a fault entry from `s`. -/
def Raises (s : State) (o : Outcome) : Prop := ∃ f, o = raise f s

theorem settle_ok {s t : State} {e : Except Fault State} (h : e = .ok t) : settle s e = .next t := by simp [h, settle]

theorem settle_next {s t : State} {e : Except Fault State} (h : settle s e = .next t) :
    e = .ok t ∨ Raises s (.next t) := by
  unfold settle at h
  split at h
  · left; simpa using h
  · right; exact ⟨_, h.symm⟩

theorem evalFailed_next {s t : State} {e : EvalError} (h : evalFailed s e = .next t) : Raises s (.next t) := by
  cases e <;> simp [evalFailed] at h
  exact ⟨_, h.symm⟩

@[simp] theorem withOperand_ok {α : Type} (s : State) (a : α) (k : α → Outcome) :
    withOperand s (.ok a) k = k a := rfl

theorem withOperand_next {α : Type} {s t : State} {v : Except EvalError α} {k : α → Outcome}
    (h : withOperand s v k = .next t) : Raises s (.next t) ∨ ∃ a, v = .ok a ∧ k a = .next t := by
  unfold withOperand at h
  split at h
  · right; exact ⟨_, rfl, h⟩
  · left; exact evalFailed_next h

/-! ## One access -/

theorem onRead_ok {r : Reg} {s t : State} {v : Word} (h : readReg r s = .ok (v, t)) (k : Word → State → Outcome) :
    onRead r s k = k v t := by simp [onRead, h]

theorem onRead_error {r : Reg} {s : State} {f : Fault} (h : readReg r s = .error f) (k : Word → State → Outcome) :
    onRead r s k = raise f s := by simp [onRead, h]

theorem onRead_next {r : Reg} {s t : State} {k : Word → State → Outcome} (h : onRead r s k = .next t) :
    Raises s (.next t) ∨ ∃ v m, readReg r s = .ok (v, m) ∧ k v m = .next t := by
  unfold onRead at h
  split at h
  · right; exact ⟨_, _, by assumption, h⟩
  · left; exact ⟨_, h.symm⟩

theorem onWrite_ok {r : Reg} {s t : State} {v : Word} (h : writeReg r v s = .ok t) (k : State → State) :
    onWrite r v s k = .next (k t) := by simp [onWrite, h]

theorem onWrite_error {r : Reg} {s : State} {v : Word} {f : Fault} (h : writeReg r v s = .error f)
    (k : State → State) : onWrite r v s k = raise f s := by simp [onWrite, h]

theorem onWrite_next {r : Reg} {s t : State} {v : Word} {k : State → State} (h : onWrite r v s k = .next t) :
    Raises s (.next t) ∨ ∃ m, writeReg r v s = .ok m ∧ t = k m := by
  unfold onWrite at h
  split at h
  · right; exact ⟨_, by assumption, by simpa using h.symm⟩
  · left; exact ⟨_, h.symm⟩

/-- A write that meets the register's row is the register's effect. -/
theorem writeReg_of_admitted {r : Reg} {v : Word} (hw : r.writable = true) (hv : r.admitsValue v = true) (s : State) :
    writeReg r v s = storeReg r v s := by simp [writeReg, hw, hv]

theorem writeReg_ok {r : Reg} {v : Word} {s t : State} (h : writeReg r v s = .ok t) :
    r.writable = true ∧ r.admitsValue v = true ∧ storeReg r v s = .ok t := by
  unfold writeReg at h
  split at h
  · rename_i hc; exact ⟨hc.1, hc.2, h⟩
  · simp at h

/-! ## What one access leaves alone -/

theorem SameCpu.refl (s : State) : SameCpu s s := ⟨rfl, rfl, rfl, rfl, rfl, rfl, rfl, rfl⟩

theorem SameHardware.refl (s : State) : SameHardware s s :=
  ⟨rfl, rfl, fun _ => rfl, rfl, fun _ => rfl, fun _ => rfl, rfl, rfl, rfl, rfl, rfl⟩

/-- A read changes at most one unit and the number of draws used. -/
theorem readReg_cases {r : Reg} {s t : State} {v : Word} (h : readReg r s = .ok (v, t)) :
    t = s ∨ t = s.drew 1 ∨ ∃ u un, t = (s.setUnit u un).drew 1 ∧
      ((un = (s.unit u).popRx ∧ (s.unit u).enabled = true ∧ (s.unit u).rxf ≠ []) ∨
        un = { s.unit u with rdReq := false } ∨ un = { s.unit u with txAbrt := false, abrtSrc := 0 }) := by
  cases r <;> simp only [readReg, Except.ok.injEq, Prod.mk.injEq, reduceCtorEq] at h
  case icDataCmd u =>
    unfold popData at h
    split at h
    · simp at h
    · split at h
      · simp at h
      · rename_i hen _ _ _ hrx
        simp at h
        exact .inr (.inr ⟨u, _, h.2.symm, .inl ⟨rfl, by simpa using hen, by simp [hrx]⟩⟩)
  case icClrRdReq u =>
    simp only [clearRdReq, Prod.mk.injEq] at h
    exact .inr (.inr ⟨u, _, h.2.symm, .inr (.inl rfl)⟩)
  case icClrTxAbrt u =>
    simp only [clearTxAbrt, Prod.mk.injEq] at h
    exact .inr (.inr ⟨u, _, h.2.symm, .inr (.inr rfl)⟩)
  all_goals first
    | exact .inl h.2.symm
    | exact .inr (.inl h.2.symm)

theorem readReg_sameCpu {r : Reg} {s t : State} {v : Word} (h : readReg r s = .ok (v, t)) : SameCpu s t := by
  obtain rfl | rfl | ⟨u, un, rfl, -⟩ := readReg_cases h <;> constructor <;> simp

theorem readReg_fault {r : Reg} {s t : State} {v : Word} (h : readReg r s = .ok (v, t)) :
    t.fault = s.fault ∧ t.turn = s.turn ∧ t.turnCount = s.turnCount ∧ t.phase = s.phase := by
  obtain rfl | rfl | ⟨u, un, rfl, -⟩ := readReg_cases h <;> simp

/-- What a write can do: to one unit, one pad, one function-select register, or one digital-output register. -/
theorem storeReg_cases {r : Reg} {v : Word} {s t : State} (h : storeReg r v s = .ok t) :
    t = s ∨
    (∃ u, (s.unit u).enabled = false ∧
      (r = .icCon u ∧ t = s.setUnit u { s.unit u with icCon := v } ∨
        r = .icTar u ∧ t = s.setUnit u { s.unit u with icTar := v } ∨
        r = .icSar u ∧ t = s.setUnit u { s.unit u with icSar := v })) ∨
    (∃ u, r = .icDataCmd u ∧ pushCommand u v s = .ok t) ∨
    (∃ u, r = .icEnable u ∧ (s.unit u).enabled = false ∧ getFlag .enable v = true ∧ enableUnit u v s = .ok t) ∨
    (∃ u, r = .icEnable u ∧ (s.unit u).enabled = true ∧ getFlag .enable v = false ∧ disableUnit u v s = .ok t) ∨
    (∃ n, r = .pad n ∧ t = s.setPad n v) ∨ (∃ n, r = .ctrl n ∧ t = s.setCtrl n v) ∨
    (∃ w, t = s.setOut w ∧ (r = .gpioOut ∧ w = v ∨ r = .gpioOutSet ∧ w = s.sioOut ||| v ∨
      r = .gpioOutClr ∧ w = s.sioOut &&& ~~~v)) ∨
    (∃ w, t = s.setOe w ∧ (r = .gpioOe ∧ w = v ∨ r = .gpioOeSet ∧ w = s.sioOe ||| v ∨
      r = .gpioOeClr ∧ w = s.sioOe &&& ~~~v)) := by
  cases r <;> simp only [storeReg, Except.ok.injEq, reduceCtorEq] at h
  case icEnable u =>
    unfold writeEnable at h
    split at h
    · exact .inr (.inr (.inr (.inl ⟨u, rfl, by assumption, by assumption, h⟩)))
    · exact .inr (.inr (.inr (.inr (.inl ⟨u, rfl, by assumption, by assumption, h⟩))))
    · simp at h; exact .inl h.symm
  case icDataCmd u => exact .inr (.inr (.inl ⟨u, rfl, h⟩))
  case pad n => exact .inr (.inr (.inr (.inr (.inr (.inl ⟨n, rfl, h.symm⟩)))))
  case ctrl n => exact .inr (.inr (.inr (.inr (.inr (.inr (.inl ⟨n, rfl, h.symm⟩))))))
  case icCon u =>
    unfold writeConfig at h; split at h
    · simp at h
    · simp at h; exact .inr (.inl ⟨u, by simp_all, .inl ⟨rfl, h.symm⟩⟩)
  case icTar u =>
    unfold writeConfig at h; split at h
    · simp at h
    · simp at h; exact .inr (.inl ⟨u, by simp_all, .inr (.inl ⟨rfl, h.symm⟩)⟩)
  case icSar u =>
    unfold writeConfig at h; split at h
    · simp at h
    · simp at h; exact .inr (.inl ⟨u, by simp_all, .inr (.inr ⟨rfl, h.symm⟩)⟩)
  all_goals
    iterate 7 right
    simp [h.symm]

/-- What a fault-free push has found, and what it does (40_register_access.md R156). -/
theorem pushCommand_ok {u : UnitId} {v : Word} {s t : State} (h : pushCommand u v s = .ok t) :
    t = s.setUnit u ((s.unit u).pushTx (cmdOf v)) ∧ (s.unit u).enabled = true ∧
      formAdmitted (s.unit u).role (commandForm v) = true ∧ (s.unit u).txf.length ≠ Config.fifoDepth ∧
      ((s.unit u).role = .controller →
        (s.unit u).txAbrt = false ∧ (s.unit u).txf = [] ∧ s.phase.reading u = false) := by
  unfold pushCommand at h
  split at h
  · simp at h
  split at h
  · simp at h
  split at h
  · simp at h
  split at h
  · simp at h
  split at h
  · simp at h
  rename_i h1 h2 h3 h4 h5
  refine ⟨by simpa using h.symm, by simpa using h1, by simpa using h2, h5, fun hr => ?_⟩
  simp [hr] at h3 h4
  exact ⟨h3, h4.1, h4.2⟩

theorem enableUnit_ok {u : UnitId} {v : Word} {s t : State} (h : enableUnit u v s = .ok t) :
    t = s.setUnit u { s.unit u with role := requestedRole (s.unit u).icCon, icEnable := v } ∧
      (s.unit u).configLegal = true ∧ s.pinsReady u = true := by
  unfold enableUnit at h
  split at h
  · simp at h
  split at h
  · simp at h
  rename_i h1 h2
  exact ⟨by simpa using h.symm, by simpa using h1, by simpa using h2⟩

theorem disableUnit_ok {u : UnitId} {v : Word} {s t : State} (h : disableUnit u v s = .ok t) :
    (∃ ta rq src, t = (s.setUnit u { s.unit u with
      txf := [], rxf := [], txAbrt := ta, rdReq := rq, abrtSrc := src, role := .none, icEnable := v }).drew 3) ∧
      s.phase.names u = false ∧ (s.unit u).txf = [] := by
  unfold disableUnit at h
  split at h
  · simp at h
  split at h
  · simp at h
  rename_i h1 h2
  simp only [Except.ok.injEq] at h
  refine ⟨⟨_, _, _, h.symm⟩, by simpa using h1, ?_⟩
  simpa using h2

theorem storeReg_sameCpu {r : Reg} {v : Word} {s t : State} (h : storeReg r v s = .ok t) : SameCpu s t := by
  obtain rfl | ⟨u, -, ⟨-, rfl⟩ | ⟨-, rfl⟩ | ⟨-, rfl⟩⟩ | ⟨u, -, h⟩ | ⟨u, -, -, -, h⟩ | ⟨u, -, -, -, h⟩ | ⟨n, -, rfl⟩ |
    ⟨n, -, rfl⟩ | ⟨w, rfl, -⟩ | ⟨w, rfl, -⟩ := storeReg_cases h
  case inr.inr.inl => obtain ⟨rfl, -⟩ := pushCommand_ok h; constructor <;> simp
  case inr.inr.inr.inl => obtain ⟨rfl, -⟩ := enableUnit_ok h; constructor <;> simp
  case inr.inr.inr.inr.inl => obtain ⟨⟨_, _, _, rfl⟩, -⟩ := disableUnit_ok h; constructor <;> simp
  all_goals constructor <;> simp

theorem storeReg_fault {r : Reg} {v : Word} {s t : State} (h : storeReg r v s = .ok t) :
    t.fault = s.fault ∧ t.turn = s.turn ∧ t.turnCount = s.turnCount ∧ t.phase = s.phase := by
  obtain rfl | ⟨u, -, ⟨-, rfl⟩ | ⟨-, rfl⟩ | ⟨-, rfl⟩⟩ | ⟨u, -, h⟩ | ⟨u, -, -, -, h⟩ | ⟨u, -, -, -, h⟩ | ⟨n, -, rfl⟩ |
    ⟨n, -, rfl⟩ | ⟨w, rfl, -⟩ | ⟨w, rfl, -⟩ := storeReg_cases h
  case inr.inr.inl => obtain ⟨rfl, -⟩ := pushCommand_ok h; simp
  case inr.inr.inr.inl => obtain ⟨rfl, -⟩ := enableUnit_ok h; simp
  case inr.inr.inr.inr.inl => obtain ⟨⟨_, _, _, rfl⟩, -⟩ := disableUnit_ok h; simp
  all_goals simp

theorem writeReg_sameCpu {r : Reg} {v : Word} {s t : State} (h : writeReg r v s = .ok t) : SameCpu s t :=
  storeReg_sameCpu (writeReg_ok h).2.2

theorem writeReg_fault {r : Reg} {v : Word} {s t : State} (h : writeReg r v s = .ok t) :
    t.fault = s.fault ∧ t.turn = s.turn ∧ t.turnCount = s.turnCount ∧ t.phase = s.phase :=
  storeReg_fault (writeReg_ok h).2.2

end Machine
end Sys2Proof
end

