-- ==== Sys2Proof/Laws/Exec.lean ====
section
/-! SUPPORT. Everything one CPU step and one bus step can do, said once (`exec_effect`, `cpuStep_effect`,
`busEffect_cases`): invariants of the machine need only these. -/

namespace Sys2Proof
namespace Machine

/-- `m` is `s` after at most one register access. -/
inductive Accessed (s : State) : State → Prop where
  | none : Accessed s s
  | read {r : Reg} {v : Word} {m : State} (h : readReg r s = .ok (v, m)) : Accessed s m
  | write {r : Reg} {v : Word} {m : State} (h : writeReg r v s = .ok m) : Accessed s m

/-- The outcome `o` of a CPU step from `s`, if it is a next state, is a fault entry, or at most one access followed by an
update of the CPU side. -/
def CpuEffect (s : State) (o : Outcome) : Prop :=
  ∀ t, o = .next t → Raises s o ∨ ∃ m, Accessed s m ∧ SameHardware m t

theorem cpuEffect_raise (f : Fault) (s : State) : CpuEffect s (raise f s) := fun _ _ => .inl ⟨f, rfl⟩

theorem cpuEffect_refused (s : State) (r : Refusal) : CpuEffect s (.refused r) := fun _ h => by simp at h

theorem cpuEffect_next {s t : State} (h : SameHardware s t) : CpuEffect s (.next t) := fun t' ht => by
  simp at ht; subst ht; exact .inr ⟨s, .none, h⟩

theorem cpuEffect_onRead {r : Reg} {s : State} {k : Word → State → Outcome}
    (hk : ∀ v m t, k v m = .next t → SameHardware m t) : CpuEffect s (onRead r s k) := fun t ht => by
  obtain h | ⟨v, m, h, h'⟩ := onRead_next ht
  · rw [ht]; exact .inl h
  · exact .inr ⟨m, .read h, hk v m t h'⟩

theorem cpuEffect_onWrite {r : Reg} {v : Word} {s : State} {k : State → State}
    (hk : ∀ m, SameHardware m (k m)) : CpuEffect s (onWrite r v s k) := fun t ht => by
  obtain h | ⟨m, h, rfl⟩ := onWrite_next ht
  · rw [ht]; exact .inl h
  · exact .inr ⟨m, .write h, hk m⟩

theorem cpuEffect_withOperand {α : Type} {s : State} {v : Except EvalError α} {k : α → Outcome}
    (hk : ∀ a, CpuEffect s (k a)) : CpuEffect s (withOperand s v k) := fun t ht => by
  cases v with
  | error e => rw [ht]; exact .inl (evalFailed_next ht)
  | ok a => exact hk a t ht

theorem sameHardware_finish (s : State) : SameHardware s s.finish := by constructor <;> simp
theorem sameHardware_advance (s : State) : SameHardware s s.advance := by constructor <;> simp
theorem sameHardware_ret (s : State) (x : Option Var) (v : Val) : SameHardware s (s.ret x v) := by
  constructor <;> simp
theorem sameHardware_retNone (s : State) (x : Option Var) : SameHardware s (s.retNone x) := by
  constructor <;> simp
theorem sameHardware_jump (s : State) (i : Nat) : SameHardware s (s.jump i) := by constructor <;> simp

theorem cpuEffect_readStmt (x : Option Var) (r : Reg) (s : State) : CpuEffect s (readStmt x r s) :=
  cpuEffect_onRead fun v m t h => by simp at h; subst h; exact sameHardware_ret m x _

theorem cpuEffect_writeStmt (r : Reg) (v : Word) (s : State) : CpuEffect s (writeStmt r v s) :=
  cpuEffect_onWrite sameHardware_finish

theorem cpuEffect_modifyRead (r : Reg) (s : State) : CpuEffect s (modifyRead r s) :=
  cpuEffect_onRead fun v m t h => by simp at h; subst h; constructor <;> simp

theorem cpuEffect_modifyWrite (r : Reg) (fs : List (Field × Word)) (s : State) {k : State → State}
    (hk : ∀ m, SameHardware m (k m)) : CpuEffect s (modifyWrite r fs s k) := cpuEffect_onWrite hk

theorem cpuEffect_poll (r : Reg) (mask value : Word) (s : State) {k : State → State}
    (hk : ∀ m, SameHardware m (k m)) : CpuEffect s (poll r mask value s k) :=
  cpuEffect_onRead fun v m t h => by
    split at h <;> simp at h <;> subst h
    · exact hk m
    · exact SameHardware.refl m

theorem cpuEffect_digitalOutputStep (x : Option Var) (p : Pin) (s : State) : CpuEffect s (digitalOutputStep x p s) := by
  unfold digitalOutputStep
  split
  · exact cpuEffect_modifyRead _ s
  · exact cpuEffect_modifyWrite _ _ s sameHardware_advance
  · exact cpuEffect_onWrite sameHardware_advance
  · exact cpuEffect_modifyRead _ s
  · exact cpuEffect_modifyWrite _ _ s sameHardware_advance
  · exact cpuEffect_onWrite (fun m => sameHardware_retNone m x)

theorem cpuEffect_signalPinStep (x : Option Var) (p : Pin) (b : Bool) (s : State) :
    CpuEffect s (signalPinStep x p b s) := by
  unfold signalPinStep
  split
  · exact cpuEffect_modifyRead _ s
  · exact cpuEffect_modifyWrite _ _ s sameHardware_advance
  · exact cpuEffect_onWrite sameHardware_advance
  · exact cpuEffect_modifyRead _ s
  · exact cpuEffect_modifyWrite _ _ s (fun m => sameHardware_retNone m x)

theorem cpuEffect_withPin {w : Word} {s : State} {k : Pin → Outcome} (hk : ∀ p, CpuEffect s (k p)) :
    CpuEffect s (withPin w s k) := by
  unfold withPin
  split
  · exact hk _
  · exact cpuEffect_raise _ s

theorem cpuEffect_withBusAddress {a : Word} {s : State} {k : Outcome} (hk : CpuEffect s k) :
    CpuEffect s (withBusAddress a s k) := by
  unfold withBusAddress
  split
  · exact hk
  · exact cpuEffect_raise _ s

theorem cpuEffect_controllerConfigStep (x : Option Var) (a : Word) (s : State) :
    CpuEffect s (controllerConfigStep x a s) := by
  unfold controllerConfigStep
  split
  · exact cpuEffect_modifyRead _ s
  · exact cpuEffect_modifyWrite _ _ s sameHardware_advance
  · exact cpuEffect_modifyRead _ s
  · exact cpuEffect_modifyWrite _ _ s sameHardware_advance
  · exact cpuEffect_onWrite sameHardware_advance
  · exact cpuEffect_modifyRead _ s
  · exact cpuEffect_modifyWrite _ _ s (fun m => sameHardware_retNone m x)

theorem cpuEffect_targetConfigStep (x : Option Var) (a : Word) (s : State) :
    CpuEffect s (targetConfigStep x a s) := by
  unfold targetConfigStep
  split
  · exact cpuEffect_modifyRead _ s
  · exact cpuEffect_modifyWrite _ _ s sameHardware_advance
  · exact cpuEffect_modifyRead _ s
  · exact cpuEffect_modifyWrite _ _ s sameHardware_advance
  · exact cpuEffect_onWrite fun m => by constructor <;> simp
  · exact cpuEffect_modifyRead _ s
  · exact cpuEffect_modifyWrite _ _ s (fun m => sameHardware_retNone m x)

theorem cpuEffect_execWrite (x : Option Var) (r : Reg) (arg : WriteArg) (s : State) :
    CpuEffect s (execWrite r arg s x) := by
  cases arg with
  | value e => exact cpuEffect_withOperand fun v => cpuEffect_onWrite fun m => sameHardware_retNone m x
  | fields fs =>
    simp only [execWrite]
    split
    · exact cpuEffect_raise _ s
    · split
      · exact cpuEffect_refused s _
      · exact cpuEffect_withOperand fun ws => cpuEffect_onWrite fun m => sameHardware_retNone m x

theorem cpuEffect_execModify (x : Option Var) (r : Reg) (fs : List (Field × Expr)) (s : State) :
    CpuEffect s (execModify r fs s x) := by
  unfold execModify
  split
  · exact cpuEffect_raise _ s
  · split
    · exact cpuEffect_refused s _
    · refine cpuEffect_withOperand fun ws => ?_
      split
      · exact cpuEffect_modifyRead r s
      · exact cpuEffect_modifyWrite r ws s fun m => sameHardware_retNone m x

theorem cpuEffect_execWaitForCondition (x : Option Var) (r : Reg) (mask value : Expr) (s : State) :
    CpuEffect s (execWaitForCondition r mask value s x) := by
  unfold execWaitForCondition
  split
  · exact cpuEffect_raise _ s
  · exact cpuEffect_withOperand fun m => cpuEffect_withOperand fun v => cpuEffect_poll r m v s fun m => sameHardware_retNone m x

theorem cpuEffect_execWriteByte (x : Option Var) (byte : Expr) (s : State) :
    CpuEffect s (execWriteByte x byte s) := by
  refine cpuEffect_withOperand fun b => ?_
  split
  · exact cpuEffect_poll _ _ _ s sameHardware_advance
  · exact cpuEffect_onWrite sameHardware_advance
  · refine cpuEffect_onRead fun v m t h => ?_
    split at h <;> simp at h <;> subst h
    · exact sameHardware_ret m x _
    · exact sameHardware_advance m
  · exact cpuEffect_onRead fun v m t h => by simp at h; subst h; exact sameHardware_advance m
  · exact cpuEffect_onRead fun v m t h => by simp at h; subst h; exact sameHardware_ret m x _

theorem cpuEffect_execRequestByteFromMemory (x : Option Var) (s : State) :
    CpuEffect s (execRequestByteFromMemory s x) := by
  unfold execRequestByteFromMemory
  split
  · exact cpuEffect_poll _ _ _ s sameHardware_advance
  · exact cpuEffect_onWrite fun m => by constructor <;> simp

theorem cpuEffect_execReceiveRequestedBytesFromMemory (x : Option Var) (s : State) :
    CpuEffect s (execReceiveRequestedBytesFromMemory x s) := by
  unfold execReceiveRequestedBytesFromMemory
  split
  · split
    · exact cpuEffect_next (sameHardware_ret s x _)
    · exact cpuEffect_next (sameHardware_advance s)
  · exact cpuEffect_poll _ _ _ s sameHardware_advance
  · exact cpuEffect_onRead fun v m t h => by simp at h; subst h; exact sameHardware_ret m x _

theorem cpuEffect_execReceiveBytesToMemory (x : Option Var) (s : State) :
    CpuEffect s (execReceiveBytesToMemory s x) := by
  unfold execReceiveBytesToMemory
  split
  · exact cpuEffect_poll _ _ _ s sameHardware_advance
  · exact cpuEffect_onRead fun v m t h => by simp at h; subst h; constructor <;> simp

theorem cpuEffect_execServeBytesFromMemory (x : Option Var) (s : State) :
    CpuEffect s (execServeBytesFromMemory s x) := by
  unfold execServeBytesFromMemory
  split
  · exact cpuEffect_poll _ _ _ s sameHardware_advance
  · exact cpuEffect_onRead fun v m t h => by simp at h; subst h; exact sameHardware_advance m
  · exact cpuEffect_onWrite (fun m => sameHardware_retNone m x)

/-! ## The access rows are one read or one write of their register -/

theorem exec_readIcCon (x : Option Var) (u : UnitId) (s : State) : exec (.readIcCon x u) s = readStmt x (.icCon u) s := rfl
theorem exec_writeIcCon (u : UnitId) (v : Word) (s : State) : exec (.writeIcCon u v) s = writeStmt (.icCon u) v s := rfl
theorem exec_readIcTar (x : Option Var) (u : UnitId) (s : State) : exec (.readIcTar x u) s = readStmt x (.icTar u) s := rfl
theorem exec_writeIcTar (u : UnitId) (v : Word) (s : State) : exec (.writeIcTar u v) s = writeStmt (.icTar u) v s := rfl
theorem exec_readIcSar (x : Option Var) (u : UnitId) (s : State) : exec (.readIcSar x u) s = readStmt x (.icSar u) s := rfl
theorem exec_writeIcSar (u : UnitId) (v : Word) (s : State) : exec (.writeIcSar u v) s = writeStmt (.icSar u) v s := rfl
theorem exec_readIcDataCmd (x : Option Var) (u : UnitId) (s : State) : exec (.readIcDataCmd x u) s = readStmt x (.icDataCmd u) s := rfl
theorem exec_writeIcDataCmdCw (u : UnitId) (dat : Byte) (s : State) : exec (.writeIcDataCmdCw u dat) s = writeStmt (.icDataCmd u) (commandWord .cw dat) s := rfl
theorem exec_writeIcDataCmdCr (u : UnitId) (dat : Byte) (s : State) : exec (.writeIcDataCmdCr u dat) s = writeStmt (.icDataCmd u) (commandWord .cr dat) s := rfl
theorem exec_writeIcDataCmdTd (u : UnitId) (dat : Byte) (s : State) : exec (.writeIcDataCmdTd u dat) s = writeStmt (.icDataCmd u) (commandWord .td dat) s := rfl
theorem exec_readIcRawIntrStat (x : Option Var) (u : UnitId) (s : State) : exec (.readIcRawIntrStat x u) s = readStmt x (.icRawIntrStat u) s := rfl
theorem exec_readIcClrRdReq (x : Option Var) (u : UnitId) (s : State) : exec (.readIcClrRdReq x u) s = readStmt x (.icClrRdReq u) s := rfl
theorem exec_readIcClrTxAbrt (x : Option Var) (u : UnitId) (s : State) : exec (.readIcClrTxAbrt x u) s = readStmt x (.icClrTxAbrt u) s := rfl
theorem exec_readIcEnable (x : Option Var) (u : UnitId) (s : State) : exec (.readIcEnable x u) s = readStmt x (.icEnable u) s := rfl
theorem exec_writeIcEnable (u : UnitId) (v : Word) (s : State) : exec (.writeIcEnable u v) s = writeStmt (.icEnable u) v s := rfl
theorem exec_readIcStatus (x : Option Var) (u : UnitId) (s : State) : exec (.readIcStatus x u) s = readStmt x (.icStatus u) s := rfl
theorem exec_readIcTxAbrtSource (x : Option Var) (u : UnitId) (s : State) : exec (.readIcTxAbrtSource x u) s = readStmt x (.icTxAbrtSource u) s := rfl
theorem exec_readIcEnableStatus (x : Option Var) (u : UnitId) (s : State) : exec (.readIcEnableStatus x u) s = readStmt x (.icEnableStatus u) s := rfl
theorem exec_readPad (x : Option Var) (n : Pin) (s : State) : exec (.readPad x n) s = readStmt x (.pad n) s := rfl
theorem exec_writePad (n : Pin) (v : Word) (s : State) : exec (.writePad n v) s = writeStmt (.pad n) v s := rfl
theorem exec_readCtrl (x : Option Var) (n : Pin) (s : State) : exec (.readCtrl x n) s = readStmt x (.ctrl n) s := rfl
theorem exec_writeCtrl (n : Pin) (v : Word) (s : State) : exec (.writeCtrl n v) s = writeStmt (.ctrl n) v s := rfl
theorem exec_readGpioOut (x : Option Var) (s : State) : exec (.readGpioOut x) s = readStmt x .gpioOut s := rfl
theorem exec_writeGpioOut (v : Word) (s : State) : exec (.writeGpioOut v) s = writeStmt .gpioOut v s := rfl
theorem exec_writeGpioOutSet (v : Word) (s : State) : exec (.writeGpioOutSet v) s = writeStmt .gpioOutSet v s := rfl
theorem exec_writeGpioOutClr (v : Word) (s : State) : exec (.writeGpioOutClr v) s = writeStmt .gpioOutClr v s := rfl
theorem exec_readGpioOe (x : Option Var) (s : State) : exec (.readGpioOe x) s = readStmt x .gpioOe s := rfl
theorem exec_writeGpioOe (v : Word) (s : State) : exec (.writeGpioOe v) s = writeStmt .gpioOe v s := rfl
theorem exec_writeGpioOeSet (v : Word) (s : State) : exec (.writeGpioOeSet v) s = writeStmt .gpioOeSet v s := rfl
theorem exec_writeGpioOeClr (v : Word) (s : State) : exec (.writeGpioOeClr v) s = writeStmt .gpioOeClr v s := rfl
theorem exec_read (x : Option Var) (r : Reg) (s : State) : exec (.read x r) s = readStmt x r s := rfl

/-- Everything an instruction can do to the hardware: a fault entry, or at most one register access. -/
theorem exec_effect (i : Instr) (s : State) : CpuEffect s (exec i s) := by
  cases i with
  | write r arg x => exact cpuEffect_execWrite x r arg s
  | modify r fs x => exact cpuEffect_execModify x r fs s
  | configureDigitalOutputPin n x =>
    exact cpuEffect_withOperand fun w => cpuEffect_withPin fun p => cpuEffect_digitalOutputStep x p s
  | configureSignalPin n b x =>
    exact cpuEffect_withOperand fun w => cpuEffect_withOperand fun b =>
      cpuEffect_withPin fun p => cpuEffect_signalPinStep x p b s
  | waitForCondition r m v x => exact cpuEffect_execWaitForCondition x r m v s
  | configureAsController a x =>
    exact cpuEffect_withOperand fun w => cpuEffect_withBusAddress (cpuEffect_controllerConfigStep x w s)
  | writeByte x b => exact cpuEffect_execWriteByte x b s
  | requestByteFromMemory x => exact cpuEffect_execRequestByteFromMemory x s
  | receiveRequestedBytesFromMemory x => exact cpuEffect_execReceiveRequestedBytesFromMemory x s
  | configureAsTarget a x =>
    exact cpuEffect_withOperand fun w => cpuEffect_withBusAddress (cpuEffect_targetConfigStep x w s)
  | receiveBytesToMemory x => exact cpuEffect_execReceiveBytesToMemory x s
  | serveBytesFromMemory x => exact cpuEffect_execServeBytesFromMemory x s
  | readIcCon x u => exact (exec_readIcCon x u s) ▸ cpuEffect_readStmt _ _ s
  | writeIcCon u v => exact (exec_writeIcCon u v s) ▸ cpuEffect_writeStmt _ _ s
  | readIcTar x u => exact (exec_readIcTar x u s) ▸ cpuEffect_readStmt _ _ s
  | writeIcTar u v => exact (exec_writeIcTar u v s) ▸ cpuEffect_writeStmt _ _ s
  | readIcSar x u => exact (exec_readIcSar x u s) ▸ cpuEffect_readStmt _ _ s
  | writeIcSar u v => exact (exec_writeIcSar u v s) ▸ cpuEffect_writeStmt _ _ s
  | readIcDataCmd x u => exact (exec_readIcDataCmd x u s) ▸ cpuEffect_readStmt _ _ s
  | writeIcDataCmdCw u dat => exact (exec_writeIcDataCmdCw u dat s) ▸ cpuEffect_writeStmt _ _ s
  | writeIcDataCmdCr u dat => exact (exec_writeIcDataCmdCr u dat s) ▸ cpuEffect_writeStmt _ _ s
  | writeIcDataCmdTd u dat => exact (exec_writeIcDataCmdTd u dat s) ▸ cpuEffect_writeStmt _ _ s
  | readIcRawIntrStat x u => exact (exec_readIcRawIntrStat x u s) ▸ cpuEffect_readStmt _ _ s
  | readIcClrRdReq x u => exact (exec_readIcClrRdReq x u s) ▸ cpuEffect_readStmt _ _ s
  | readIcClrTxAbrt x u => exact (exec_readIcClrTxAbrt x u s) ▸ cpuEffect_readStmt _ _ s
  | readIcEnable x u => exact (exec_readIcEnable x u s) ▸ cpuEffect_readStmt _ _ s
  | writeIcEnable u v => exact (exec_writeIcEnable u v s) ▸ cpuEffect_writeStmt _ _ s
  | readIcStatus x u => exact (exec_readIcStatus x u s) ▸ cpuEffect_readStmt _ _ s
  | readIcTxAbrtSource x u => exact (exec_readIcTxAbrtSource x u s) ▸ cpuEffect_readStmt _ _ s
  | readIcEnableStatus x u => exact (exec_readIcEnableStatus x u s) ▸ cpuEffect_readStmt _ _ s
  | readPad x n => exact (exec_readPad x n s) ▸ cpuEffect_readStmt _ _ s
  | writePad n v => exact (exec_writePad n v s) ▸ cpuEffect_writeStmt _ _ s
  | readCtrl x n => exact (exec_readCtrl x n s) ▸ cpuEffect_readStmt _ _ s
  | writeCtrl n v => exact (exec_writeCtrl n v s) ▸ cpuEffect_writeStmt _ _ s
  | readGpioOut x => exact (exec_readGpioOut x s) ▸ cpuEffect_readStmt _ _ s
  | writeGpioOut v => exact (exec_writeGpioOut v s) ▸ cpuEffect_writeStmt _ _ s
  | writeGpioOutSet v => exact (exec_writeGpioOutSet v s) ▸ cpuEffect_writeStmt _ _ s
  | writeGpioOutClr v => exact (exec_writeGpioOutClr v s) ▸ cpuEffect_writeStmt _ _ s
  | readGpioOe x => exact (exec_readGpioOe x s) ▸ cpuEffect_readStmt _ _ s
  | writeGpioOe v => exact (exec_writeGpioOe v s) ▸ cpuEffect_writeStmt _ _ s
  | writeGpioOeSet v => exact (exec_writeGpioOeSet v s) ▸ cpuEffect_writeStmt _ _ s
  | writeGpioOeClr v => exact (exec_writeGpioOeClr v s) ▸ cpuEffect_writeStmt _ _ s
  | read x r => exact (exec_read x r s) ▸ cpuEffect_readStmt _ _ s

theorem cpuEffect_jumpTo (l : Label) (s : State) : CpuEffect s (jumpTo l s) := by
  unfold jumpTo
  split
  · exact cpuEffect_next (sameHardware_jump s _)
  · exact cpuEffect_refused s _

theorem runOther_effect (s : State) : CpuEffect s (runOther s) := by
  unfold runOther
  split
  · split
    · exact cpuEffect_next (SameHardware.refl s)
    · rename_i e _
      cases e with
      | noForm u v => exact cpuEffect_writeStmt _ _ s
      | _ => exact cpuEffect_raise _ s
  · unfold runAssign
    split
    · exact cpuEffect_next (sameHardware_ret s _ _)
    · intro t ht; rw [ht]; exact .inl (evalFailed_next ht)
  · refine cpuEffect_withOperand fun b => ?_
    split
    · exact cpuEffect_jumpTo _ s
    · exact cpuEffect_next (sameHardware_finish s)
  · exact cpuEffect_jumpTo _ s
  all_goals exact cpuEffect_next (SameHardware.refl s)

/-- Everything a CPU step can do to the hardware. -/
theorem cpuStep_effect (s : State) : CpuEffect s (cpuStep s) := by
  unfold cpuStep
  split
  · exact exec_effect _ s
  · exact runOther_effect s

/-! ## The bus agent -/

/-- What an enabled, fault-free joint step does. -/
theorem busEffect_cases {b : BusStep} {s t : State} (hen : s.busEnabled b = true) (h : busEffect b s = .ok t) :
    (∃ c, s.ready c = true ∧ s.acks c (otherUnit c) = true ∧
      ((∃ e rest, b = .write c ∧ (s.unit c).txf = e :: rest ∧
          (s.unit (otherUnit c)).rxf.length ≠ Config.fifoDepth ∧
          t = (s.setUnit c (s.unit c).popTx).setUnit (otherUnit c) ((s.unit (otherUnit c)).pushRx e.dat)) ∨
        (b = .readAddr c ∧ (s.unit (otherUnit c)).txf = [] ∧
          t = ((s.setUnit c (s.unit c).popTx).setUnit (otherUnit c)
            { s.unit (otherUnit c) with rdReq := true }).setPhase (.readPending c (otherUnit c))))) ∨
    (∃ c, s.ready c = true ∧ (b = .write c ∨ b = .readAddr c) ∧ t = abortNoAck c s) ∨
    (∃ c e rest, b = .readData c ∧ s.phase = .readPending c (otherUnit c) ∧
      (s.unit (otherUnit c)).txf = e :: rest ∧ (s.unit c).rxf.length ≠ Config.fifoDepth ∧
      t = ((s.setUnit (otherUnit c) (s.unit (otherUnit c)).popTx).setUnit c ((s.unit c).pushRx e.dat)).setPhase .idle) ∨
    (∃ c, b = .lost c ∧ (s.ready c = true ∨ s.phase = .readPending c (otherUnit c)) ∧ t = busLost c s) := by
  cases b with
  | write c =>
    simp only [State.busEnabled, Bool.and_eq_true] at hen
    simp only [busEffect, busWrite] at h
    split at h
    · rename_i hack
      split at h
      · simp at h
      · split at h
        · rename_i hnil
          have := hen.1.1
          simp [State.ready, hnil] at this
        · rename_i hd _ e rest htx
          simp only [Except.ok.injEq] at h
          exact .inl ⟨c, hen.1.1, hack, .inl ⟨e, rest, rfl, htx, hd, h.symm⟩⟩
    · simp only [Except.ok.injEq] at h
      exact .inr (.inl ⟨c, hen.1.1, .inl rfl, h.symm⟩)
  | readAddr c =>
    simp only [State.busEnabled, Bool.and_eq_true] at hen
    simp only [busEffect, busReadAddr] at h
    split at h
    · rename_i hack
      split at h
      · simp at h
      · rename_i htx
        simp only [Except.ok.injEq] at h
        exact .inl ⟨c, hen.1.1, hack, .inr ⟨rfl, by simpa using htx, h.symm⟩⟩
    · simp only [Except.ok.injEq] at h
      exact .inr (.inl ⟨c, hen.1.1, .inr rfl, h.symm⟩)
  | readData c =>
    simp only [State.busEnabled, Bool.and_eq_true] at hen
    simp only [busEffect, busReadData] at h
    split at h
    · simp at h
    · split at h
      · rename_i hnil
        have := hen.1.1.2
        simp [hnil] at this
      · rename_i hd _ e rest htx
        simp only [Except.ok.injEq] at h
        exact .inr (.inr (.inl ⟨c, e, rest, rfl, by simpa using hen.1.1.1, htx, hd, h.symm⟩))
  | lost c =>
    simp only [State.busEnabled, Bool.or_eq_true, Bool.and_eq_true] at hen
    simp only [busEffect, Except.ok.injEq] at h
    refine .inr (.inr (.inr ⟨c, rfl, ?_, h.symm⟩))
    obtain h1 | h1 := hen
    · exact .inl h1.1
    · exact .inr (by simpa using h1.1)

/-- Everything a turn of the bus agent can do. -/
theorem busTurn_next {b : BusStep} {s t : State} (h : busTurn b s = .next t) :
    t = s ∨ Raises s (.next t) ∨ s.busEnabled b = true ∧ busEffect b s = .ok t := by
  unfold busTurn at h
  split at h
  · rename_i hen
    obtain h' | h' := settle_next h
    · exact .inr (.inr ⟨hen, h'⟩)
    · exact .inr (.inl h')
  · simp at h; exact .inl h.symm

/-! ## The step -/

theorem step_of_fault {s : State} {f : Fault} (h : s.fault = some f) : step s = .fault f := by simp [step, h]

theorem step_of_none {s : State} (h : s.fault = .none) : step s = endTurn (act s) := by simp [step, h]

/-- A step that answers a next state: FAULT was none, and the turn's act came before the turn passed. -/
theorem step_next {s t : State} (h : step s = .next t) : s.fault = .none ∧ ∃ m, act s = .next m ∧ t = passTurn m := by
  unfold step at h
  split at h
  · simp at h
  · rename_i hf
    refine ⟨hf, ?_⟩
    unfold endTurn at h
    split at h <;> simp_all

/-- An act that answers a next state is a fault entry, one access of the CPU, or a joint step. -/
theorem act_next {s t : State} (h : act s = .next t) :
    Raises s (.next t) ∨ (s.turn = .cpu ∧ ∃ m, Accessed s m ∧ SameHardware m t) ∨
      ∃ b, s.turn = .bus b ∧ (t = s ∨ s.busEnabled b = true ∧ busEffect b s = .ok t) := by
  unfold act at h
  split at h
  · rename_i ht
    obtain h' | h' := cpuStep_effect s t h
    · rw [h] at h'; exact .inl h'
    · exact .inr (.inl ⟨ht, h'⟩)
  · rename_i b ht
    obtain rfl | h' | h' := busTurn_next h
    · exact .inr (.inr ⟨b, ht, .inl rfl⟩)
    · exact .inl h'
    · exact .inr (.inr ⟨b, ht, .inr h'⟩)

/-- The shape of an invariant proof: a property of the state that does not read the model's own fields, the CPU side or
FAULT is kept by every step if every access and every joint step keeps it. -/
theorem step_keeps {P : State → Prop} (hsame : ∀ s t, SameHardware s t → P s → P t)
    (hfault : ∀ s f, P s → P (s.setFault f)) (hpass : ∀ s, P s → P (passTurn s))
    (hacc : ∀ s m, Accessed s m → P s → P m)
    (hbus : ∀ b s t, s.busEnabled b = true → busEffect b s = .ok t → P s → P t)
    {s t : State} (hs : P s) (h : step s = .next t) : P t := by
  obtain ⟨-, m, hm, rfl⟩ := step_next h
  refine hpass m ?_
  obtain ⟨f, hf⟩ | ⟨-, m', ha, hh⟩ | ⟨b, -, rfl | ⟨hen, he⟩⟩ := act_next hm
  · obtain rfl | rfl := raise_next hf.symm
    · exact hs
    · exact hfault s f hs
  · exact hsame m' m hh (hacc s m' ha hs)
  · exact hs
  · exact hbus b s m hen he hs

end Machine
end Sys2Proof
end

