-- ==== Sys2Proof/Laws/Flags.lean ====
section
/-! SUPPORT. The tracked bits of the status registers do not depend on the draw that supplies the others (10_state.md R39, R43,
R44; 40_register_access.md R157, R161 to R164). -/

namespace Sys2Proof
namespace Machine

/-! ## The words as numbers -/

theorem statusWord_eq (un : UnitState) (d : Word) :
    statusWord un d =
      (d &&& (0x61 : Word)) ||| (bit un.tfnf <<< 1) ||| (bit un.tfe <<< 2) ||| (bit un.rfne <<< 3) ||| (bit un.rff <<< 4) := by
  have : fieldsMask [.activity, .mstActivity, .slvActivity] = 0x61 := by decide
  simp [statusWord, flag, this]

theorem rawIntrStatWord_eq (un : UnitState) (d : Word) :
    rawIntrStatWord un d = (d &&& (0x1F9F : Word)) ||| (bit un.rdReq <<< 5) ||| (bit un.txAbrt <<< 6) := by
  have : fieldsMask [.rxUnder, .rxOver, .rxFull, .txOver, .txEmpty, .rxDone, .rawActivity, .stopDet, .startDet, .genCall,
    .restartDet] = 0x1F9F := by decide
  simp [rawIntrStatWord, flag, this]

theorem txAbrtSourceWord_eq (un : UnitState) (d : Word) :
    txAbrtSourceWord un d = (un.abrtSrc &&& 0x007FFFFF) ||| (d &&& (0xFF800000 : Word)) := by
  simp [txAbrtSourceWord]

theorem enableStatusWord_eq (un : UnitState) (d : Word) : enableStatusWord un d = bit un.enabled ||| (d &&& (0x6 : Word)) := by
  have : fieldsMask [.slvDisabledWhileBusy, .slvRxDataLost] = 0x6 := by decide
  simp [enableStatusWord, flag, this]

theorem dataCmdWord_eq (b : Byte) (d : Word) : dataCmdWord b d = b.zeroExtend 32 ||| (d &&& (0x800 : Word)) := by
  simp [dataCmdWord]

theorem cmdOf_eq (v : Word) : cmdOf v = ⟨v.truncate 8, v.getLsbD 8, v.getLsbD 9, v.getLsbD 10⟩ := by
  simp [cmdOf, truncate_getField_dat]

theorem conBitsLegal_eq (con : Word) :
    conBitsLegal con = !(con.getLsbD 3 || con.getLsbD 4 || con.getLsbD 7 || con.getLsbD 8 || con.getLsbD 9) := rfl

theorem enabled_eq (un : UnitState) : un.enabled = un.icEnable.getLsbD 0 := rfl

/-! ## Tracked bits -/

/-- Masking away every drawn bit leaves the tracked part. -/
theorem and_drop_draw {d m t k : Word} (h : m &&& k = 0) : ((d &&& m) ||| t) &&& k = t &&& k := by
  apply BitVec.eq_of_getLsbD_eq
  intro i hi
  have hb : (m &&& k).getLsbD i = false := by rw [h]; simp
  simp only [BitVec.getLsbD_and, BitVec.getLsbD_or] at hb ⊢
  cases hm : m.getLsbD i <;> cases hk : k.getLsbD i <;> simp_all

/-- Bits 4:1 of IC_STATUS: RFF, RFNE, TFE, TFNF (40_register_access.md R161). -/
theorem statusWord_tracked (un : UnitState) (d : Word) :
    statusWord un d &&& (0x1E : Word) =
      (bit un.tfnf <<< 1) ||| (bit un.tfe <<< 2) ||| (bit un.rfne <<< 3) ||| (bit un.rff <<< 4) := by
  rw [statusWord_eq]
  rw [BitVec.or_assoc, BitVec.or_assoc, BitVec.or_assoc, and_drop_draw (by decide)]
  cases un.tfnf <;> cases un.tfe <;> cases un.rfne <;> cases un.rff <;> decide

/-- A mask of tracked bits of IC_STATUS. -/
theorem statusWord_and {k : Word} (un : UnitState) (d : Word) (hk : (0x1E : Word) &&& k = k) :
    statusWord un d &&& k =
      ((bit un.tfnf <<< 1) ||| (bit un.tfe <<< 2) ||| (bit un.rfne <<< 3) ||| (bit un.rff <<< 4)) &&& k := by
  rw [← statusWord_tracked un d, BitVec.and_assoc, hk]

/-- The poll of TFNF (42_busy_wait.md R203). -/
theorem statusWord_poll_tfnf (un : UnitState) (d : Word) : statusWord un d &&& 0x2 = 0x2 ↔ un.tfnf = true := by
  rw [statusWord_and un d (by decide)]
  cases un.tfnf <;> cases un.tfe <;> cases un.rfne <;> cases un.rff <;> decide

/-- The poll of RFNE (42_busy_wait.md R203). -/
theorem statusWord_poll_rfne (un : UnitState) (d : Word) : statusWord un d &&& 0x8 = 0x8 ↔ un.rfne = true := by
  rw [statusWord_and un d (by decide)]
  cases un.tfnf <;> cases un.tfe <;> cases un.rfne <;> cases un.rff <;> decide

/-- Bits 5 and 6 of IC_RAW_INTR_STAT: RD_REQ and TX_ABRT; bits 31:13 read 0 (40_register_access.md R162). -/
theorem rawIntrStatWord_tracked (un : UnitState) (d : Word) :
    rawIntrStatWord un d &&& (0xFFFFE060 : Word) = (bit un.rdReq <<< 5) ||| (bit un.txAbrt <<< 6) := by
  rw [rawIntrStatWord_eq]
  rw [BitVec.or_assoc, and_drop_draw (by decide)]
  cases un.rdReq <;> cases un.txAbrt <;> decide

theorem rawIntrStatWord_and {k : Word} (un : UnitState) (d : Word) (hk : (0xFFFFE060 : Word) &&& k = k) :
    rawIntrStatWord un d &&& k = ((bit un.rdReq <<< 5) ||| (bit un.txAbrt <<< 6)) &&& k := by
  rw [← rawIntrStatWord_tracked un d, BitVec.and_assoc, hk]

/-- The poll of RD_REQ (42_busy_wait.md R203). -/
theorem rawIntrStatWord_poll_rdReq (un : UnitState) (d : Word) :
    rawIntrStatWord un d &&& 0x20 = 0x20 ↔ un.rdReq = true := by
  rw [rawIntrStatWord_and un d (by decide)]
  cases un.rdReq <;> cases un.txAbrt <;> decide

/-- The abort flag that `writeByte` checks (43_i2c_controller.md R212). -/
theorem rawIntrStatWord_txAbrt (un : UnitState) (d : Word) : (rawIntrStatWord un d).getLsbD 6 = un.txAbrt := by
  have h := rawIntrStatWord_and (k := 0x40) un d (by decide)
  have h6 : (rawIntrStatWord un d).getLsbD 6 = (rawIntrStatWord un d &&& (0x40 : Word)).getLsbD 6 := by
    simp
  rw [h6, h]
  cases un.rdReq <;> cases un.txAbrt <;> decide

/-- Bits 22:0 of IC_TX_ABRT_SOURCE (40_register_access.md R163). -/
theorem txAbrtSourceWord_tracked (un : UnitState) (d : Word) :
    txAbrtSourceWord un d &&& (0x007FFFFF : Word) = un.abrtSrc &&& (0x007FFFFF : Word) := by
  rw [txAbrtSourceWord_eq]
  rw [BitVec.or_comm, and_drop_draw (by decide), BitVec.and_assoc]
  simp

/-- Bit 0 and bits 31:3 of IC_ENABLE_STATUS (40_register_access.md R164). -/
theorem enableStatusWord_tracked (un : UnitState) (d : Word) :
    enableStatusWord un d &&& (0xFFFFFFF9 : Word) = bit un.enabled := by
  rw [enableStatusWord_eq]
  rw [BitVec.or_comm, and_drop_draw (by decide)]
  cases un.enabled <;> decide

theorem zeroExtend_and_ff (b : Byte) : b.zeroExtend 32 &&& (0xFF : Word) = b.zeroExtend 32 := by
  have hm : (0xFF : Word) = (BitVec.allOnes 8).zeroExtend 32 := by decide
  rw [hm]
  apply BitVec.eq_of_getLsbD_eq
  intro i hi
  by_cases h : i < 8
  · simp only [BitVec.getLsbD_and, BitVec.getLsbD_setWidth, BitVec.getLsbD_allOnes, h, hi]; simp
  · simp [BitVec.getLsbD_of_ge b i (by omega)]

/-- The byte of a read of IC_DATA_CMD (30_encoding.md R116; 40_register_access.md R157). -/
theorem dataCmdWord_and_ff (b : Byte) (d : Word) : dataCmdWord b d &&& (0xFF : Word) = b.zeroExtend 32 := by
  rw [dataCmdWord_eq]
  rw [BitVec.or_comm, and_drop_draw (by decide), zeroExtend_and_ff]

theorem dataCmdWord_truncate (b : Byte) (d : Word) : (dataCmdWord b d).truncate 8 = b := by
  apply BitVec.eq_of_getLsbD_eq
  intro i hi
  have : i = 0 ∨ i = 1 ∨ i = 2 ∨ i = 3 ∨ i = 4 ∨ i = 5 ∨ i = 6 ∨ i = 7 := by omega
  rcases this with rfl | rfl | rfl | rfl | rfl | rfl | rfl | rfl <;> simp [dataCmdWord_eq]

/-! ## FIFO entries of the command forms -/

theorem cmdOf_commandWord (f : CommandForm) (b : Byte) :
    cmdOf (commandWord f b) =
      match f with
      | .cw => ⟨b, false, true, false⟩
      | .cr => ⟨b, true, true, false⟩
      | .td => ⟨b, false, false, false⟩ := by
  have ht := truncate_commandWord f b
  cases f <;> simp only [cmdOf_eq] <;> rw [ht] <;> simp [commandWord_cw, commandWord_cr, commandWord_td]

/-- Every form that a role admits has the role's STOP and RESTART bits. -/
theorem cmdOf_of_formAdmitted {v : Word} {r : Role} (h : formAdmitted r (commandForm v) = true) :
    (r = .controller → (cmdOf v).stop = true ∧ (cmdOf v).restart = false) ∧
      (r = .target → (cmdOf v).cmd = false ∧ (cmdOf v).stop = false ∧ (cmdOf v).restart = false) := by
  cases hf : commandForm v with
  | none => rw [hf] at h; cases r <;> simp [formAdmitted] at h
  | some f =>
    rw [hf] at h
    rw [← commandWord_truncate hf, cmdOf_commandWord]
    cases f <;> cases r <;> simp [formAdmitted] at h ⊢

end Machine
end Sys2Proof
end

