-- ==== Sys2Proof/Laws/PerInstr.lean ====
section
/-! SUPPORT. One lemma per instruction: the encoding of an access row is one aligned 32-bit access (20_memory.md R83, R84;
30_encoding.md R118). -/

namespace Sys2Proof

/-- The access is 32 bits wide and aligned. -/
def Access.isWord : Access → Bool
  | .read _ addr width => wordAligned addr width
  | .write addr width _ => wordAligned addr width

theorem readAccess_isWord (x : Option Var) (r : Reg) : (readAccess x r).isWord = true := wordAligned_addr r

theorem writeAccess_isWord (r : Reg) (v : Word) : (writeAccess r v).isWord = true := wordAligned_addr r

namespace Laws
namespace EncodedAccess

/-- If the instruction has an encoding, it is one aligned 32-bit access. -/
def Statement (i : Instr) : Prop := ∀ a, encode i = some a → a.isWord = true

theorem readIcCon (x : Option Var) (u : UnitId) : Statement (.readIcCon x u) := fun _ h => by cases h; exact readAccess_isWord _ _
theorem writeIcCon (u : UnitId) (v : Word) : Statement (.writeIcCon u v) := fun _ h => by cases h; exact writeAccess_isWord _ _
theorem readIcTar (x : Option Var) (u : UnitId) : Statement (.readIcTar x u) := fun _ h => by cases h; exact readAccess_isWord _ _
theorem writeIcTar (u : UnitId) (v : Word) : Statement (.writeIcTar u v) := fun _ h => by cases h; exact writeAccess_isWord _ _
theorem readIcSar (x : Option Var) (u : UnitId) : Statement (.readIcSar x u) := fun _ h => by cases h; exact readAccess_isWord _ _
theorem writeIcSar (u : UnitId) (v : Word) : Statement (.writeIcSar u v) := fun _ h => by cases h; exact writeAccess_isWord _ _
theorem readIcDataCmd (x : Option Var) (u : UnitId) : Statement (.readIcDataCmd x u) := fun _ h => by cases h; exact readAccess_isWord _ _
theorem writeIcDataCmdCw (u : UnitId) (dat : Byte) : Statement (.writeIcDataCmdCw u dat) := fun _ h => by cases h; exact writeAccess_isWord _ _
theorem writeIcDataCmdCr (u : UnitId) (dat : Byte) : Statement (.writeIcDataCmdCr u dat) := fun _ h => by cases h; exact writeAccess_isWord _ _
theorem writeIcDataCmdTd (u : UnitId) (dat : Byte) : Statement (.writeIcDataCmdTd u dat) := fun _ h => by cases h; exact writeAccess_isWord _ _
theorem readIcRawIntrStat (x : Option Var) (u : UnitId) : Statement (.readIcRawIntrStat x u) := fun _ h => by cases h; exact readAccess_isWord _ _
theorem readIcClrRdReq (x : Option Var) (u : UnitId) : Statement (.readIcClrRdReq x u) := fun _ h => by cases h; exact readAccess_isWord _ _
theorem readIcClrTxAbrt (x : Option Var) (u : UnitId) : Statement (.readIcClrTxAbrt x u) := fun _ h => by cases h; exact readAccess_isWord _ _
theorem readIcEnable (x : Option Var) (u : UnitId) : Statement (.readIcEnable x u) := fun _ h => by cases h; exact readAccess_isWord _ _
theorem writeIcEnable (u : UnitId) (v : Word) : Statement (.writeIcEnable u v) := fun _ h => by cases h; exact writeAccess_isWord _ _
theorem readIcStatus (x : Option Var) (u : UnitId) : Statement (.readIcStatus x u) := fun _ h => by cases h; exact readAccess_isWord _ _
theorem readIcTxAbrtSource (x : Option Var) (u : UnitId) : Statement (.readIcTxAbrtSource x u) := fun _ h => by cases h; exact readAccess_isWord _ _
theorem readIcEnableStatus (x : Option Var) (u : UnitId) : Statement (.readIcEnableStatus x u) := fun _ h => by cases h; exact readAccess_isWord _ _
theorem readPad (x : Option Var) (n : Pin) : Statement (.readPad x n) := fun _ h => by cases h; exact readAccess_isWord _ _
theorem writePad (n : Pin) (v : Word) : Statement (.writePad n v) := fun _ h => by cases h; exact writeAccess_isWord _ _
theorem readCtrl (x : Option Var) (n : Pin) : Statement (.readCtrl x n) := fun _ h => by cases h; exact readAccess_isWord _ _
theorem writeCtrl (n : Pin) (v : Word) : Statement (.writeCtrl n v) := fun _ h => by cases h; exact writeAccess_isWord _ _
theorem readGpioOut (x : Option Var) : Statement (.readGpioOut x) := fun _ h => by cases h; exact readAccess_isWord _ _
theorem writeGpioOut (v : Word) : Statement (.writeGpioOut v) := fun _ h => by cases h; exact writeAccess_isWord _ _
theorem writeGpioOutSet (v : Word) : Statement (.writeGpioOutSet v) := fun _ h => by cases h; exact writeAccess_isWord _ _
theorem writeGpioOutClr (v : Word) : Statement (.writeGpioOutClr v) := fun _ h => by cases h; exact writeAccess_isWord _ _
theorem readGpioOe (x : Option Var) : Statement (.readGpioOe x) := fun _ h => by cases h; exact readAccess_isWord _ _
theorem writeGpioOe (v : Word) : Statement (.writeGpioOe v) := fun _ h => by cases h; exact writeAccess_isWord _ _
theorem writeGpioOeSet (v : Word) : Statement (.writeGpioOeSet v) := fun _ h => by cases h; exact writeAccess_isWord _ _
theorem writeGpioOeClr (v : Word) : Statement (.writeGpioOeClr v) := fun _ h => by cases h; exact writeAccess_isWord _ _
theorem read (x : Option Var) (r : Reg) : Statement (.read x r) := fun _ h => by simp [encode] at h
theorem write (r : Reg) (arg : WriteArg) (x : Option Var) : Statement (.write r arg x) := fun _ h => by simp [encode] at h
theorem modify (r : Reg) (fs : List (Field × Expr)) (x : Option Var) : Statement (.modify r fs x) := fun _ h => by simp [encode] at h
theorem configureDigitalOutputPin (n : Expr) (x : Option Var) : Statement (.configureDigitalOutputPin n x) := fun _ h => by simp [encode] at h
theorem configureSignalPin (n : Expr) (internalPullUp : Expr) (x : Option Var) : Statement (.configureSignalPin n internalPullUp x) := fun _ h => by simp [encode] at h
theorem waitForCondition (r : Reg) (mask value : Expr) (x : Option Var) : Statement (.waitForCondition r mask value x) := fun _ h => by simp [encode] at h
theorem configureAsController (targetAddress : Expr) (x : Option Var) : Statement (.configureAsController targetAddress x) := fun _ h => by simp [encode] at h
theorem writeByte (x : Option Var) (byte : Expr) : Statement (.writeByte x byte) := fun _ h => by simp [encode] at h
theorem requestByteFromMemory (x : Option Var) : Statement (.requestByteFromMemory x) := fun _ h => by simp [encode] at h
theorem receiveRequestedBytesFromMemory (x : Option Var) : Statement (.receiveRequestedBytesFromMemory x) := fun _ h => by simp [encode] at h
theorem configureAsTarget (address : Expr) (x : Option Var) : Statement (.configureAsTarget address x) := fun _ h => by simp [encode] at h
theorem receiveBytesToMemory (x : Option Var) : Statement (.receiveBytesToMemory x) := fun _ h => by simp [encode] at h
theorem serveBytesFromMemory (x : Option Var) : Statement (.serveBytesFromMemory x) := fun _ h => by simp [encode] at h

end EncodedAccess
end Laws
end Sys2Proof
end

