-- ==== Sys2Proof/Laws/Pins.lean ====
section
/-! SUPPORT. What the pin predicates read (41_pin_configuration.md R170, R172; 45_i2c_bus_engine.md R271): a state with the same
board and pin registers has the same roles and the same bus. -/

namespace Sys2Proof
namespace Machine

theorem pinRole_congr {s t : State} {n : Pin} (hp : t.pad n = s.pad n) (hc : t.ctrl n = s.ctrl n)
    (ho : t.sioOe = s.sioOe) : t.pinRole n = s.pinRole n := by
  unfold State.pinRole
  rw [hp, hc, ho]

theorem carries_congr {s t : State} (hb : t.board = s.board) (hp : ∀ n, t.pad n = s.pad n)
    (hc : ∀ n, t.ctrl n = s.ctrl n) (ho : t.sioOe = s.sioOe) (sig : Signal) (u : UnitId) :
    t.carries sig u = s.carries sig u := by
  unfold State.carries
  rw [hb, pinRole_congr (hp _) (hc _) ho]

theorem pinsReady_congr {s t : State} (hb : t.board = s.board) (hp : ∀ n, t.pad n = s.pad n)
    (hc : ∀ n, t.ctrl n = s.ctrl n) (ho : t.sioOe = s.sioOe) (u : UnitId) : t.pinsReady u = s.pinsReady u := by
  unfold State.pinsReady
  rw [carries_congr hb hp hc ho, carries_congr hb hp hc ho]

theorem busUp_congr {s t : State} (hb : t.board = s.board) (hp : ∀ n, t.pad n = s.pad n)
    (hc : ∀ n, t.ctrl n = s.ctrl n) (ho : t.sioOe = s.sioOe) (c : UnitId) : t.busUp c = s.busUp c := by
  unfold State.busUp State.pulled
  simp only [hb, hp, carries_congr hb hp hc ho, pinsReady_congr hb hp hc ho]

end Machine
end Sys2Proof
end

