-- ==== Sys2Proof/Laws/Vars.lean ====
section
/-! SUPPORT. Laws of the caller's variables (10_state.md R31): a read after an assignment, and the canonical form. -/

namespace Sys2Proof
namespace Machine

@[simp] theorem lookupVar_assignVar_self (x : Var) (v : Val) (l : List (Var × Val)) :
    lookupVar x (assignVar x v l) = some v := by
  induction l with
  | nil => simp [assignVar, lookupVar]
  | cons p rest ih =>
    obtain ⟨y, w⟩ := p
    unfold assignVar
    split
    · simp [lookupVar]
    · split
      · simp [lookupVar]
      · rename_i hne; simp [lookupVar, hne, ih]

theorem lookupVar_assignVar_of_ne {x y : Var} (h : y ≠ x) (v : Val) (l : List (Var × Val)) :
    lookupVar y (assignVar x v l) = lookupVar y l := by
  induction l with
  | nil => simp [assignVar, lookupVar, h]
  | cons p rest ih =>
    obtain ⟨z, w⟩ := p
    unfold assignVar
    split
    · simp [lookupVar, h]
    · split
      · rename_i e; subst e; simp [lookupVar, h]
      · simp [lookupVar, ih]

theorem mem_names_assignVar {x y : Var} {v : Val} {l : List (Var × Val)}
    (h : y ∈ (assignVar x v l).map Prod.fst) : y = x ∨ y ∈ l.map Prod.fst := by
  induction l with
  | nil => left; simpa [assignVar] using h
  | cons p rest ih =>
    obtain ⟨z, w⟩ := p
    unfold assignVar at h
    split at h
    · simpa using h
    · split at h
      · right
        rename_i e
        subst e
        simpa using h
      · rw [List.map_cons, List.mem_cons] at h
        rw [List.map_cons, List.mem_cons]
        obtain h | h := h
        · exact .inr (.inl h)
        · obtain h | h := ih h
          · exact .inl h
          · exact .inr (.inr h)

/-- An assignment keeps the canonical form. -/
theorem assignVar_wf (x : Var) (v : Val) {l : List (Var × Val)} (h : VarsWf l) : VarsWf (assignVar x v l) := by
  induction l with
  | nil => simp [assignVar, VarsWf]
  | cons p rest ih =>
    obtain ⟨z, w⟩ := p
    have hz : ∀ y, y ∈ rest.map Prod.fst → z < y := by
      have := h; simp only [VarsWf, List.map_cons, List.pairwise_cons] at this; exact this.1
    have hrest : VarsWf rest := by
      have := h; simp only [VarsWf, List.map_cons, List.pairwise_cons] at this; exact this.2
    unfold assignVar
    split
    · rename_i hlt
      simp only [VarsWf, List.map_cons, List.pairwise_cons]
      refine ⟨fun y hy => ?_, hz, hrest⟩
      obtain rfl | hy := List.mem_cons.1 hy
      · exact hlt
      · exact Nat.lt_trans hlt (hz y hy)
    · split
      · rename_i e; subst e
        simpa only [VarsWf, List.map_cons] using h
      · rename_i h1 h2
        simp only [VarsWf, List.map_cons, List.pairwise_cons]
        refine ⟨fun y hy => ?_, ih hrest⟩
        obtain hyx | hy := mem_names_assignVar hy
        · rw [hyx]; exact Nat.lt_of_le_of_ne (Nat.le_of_not_lt h1) (fun e => h2 e.symm)
        · exact hz y hy

/-! ## The return of an operation without a result (log 35) -/

theorem noResultVars_wf (x : Var) (k : Nat) {l : List (Var × Val)} (h : VarsWf l) : VarsWf (noResultVars x k l) := by
  unfold noResultVars
  split
  · exact assignVar_wf x _ h
  · exact h

/-- It keeps the canonical form of the variables. -/
theorem State.noResult_varsWf (s : State) (x : Option Var) (h : VarsWf s.vars) : VarsWf (s.noResult x).vars := by
  cases x with
  | none => exact h
  | some x => exact noResultVars_wf x _ h

/-- It changes no variable but its own. -/
theorem State.lookupVar_noResult {s : State} {x : Option Var} {y : Var} (h : x ≠ some y) :
    lookupVar y (s.noResult x).vars = lookupVar y s.vars := by
  cases x with
  | none => rfl
  | some x =>
    show lookupVar y (noResultVars x s.drawCount s.vars) = _
    unfold noResultVars
    split
    · exact lookupVar_assignVar_of_ne (fun e => h (by rw [e])) _ _
    · rfl

/-! ## Expressions: what can keep one from having a value -/

@[simp] theorem onVal_ok (f : Val → Except EvalError Val) (v : Val) : onVal f (.ok v) = f v := rfl
@[simp] theorem onVal_raise (f : Val → Except EvalError Val) (e : EvalError) : onVal f (.error e) = .error e := rfl
@[simp] theorem onVals_ok (f : Val → Val → Val) (v w : Val) : onVals f (.ok v) (.ok w) = .ok (f v w) := rfl
@[simp] theorem onVals_raise_left (f : Val → Val → Val) (e : EvalError) (b : Except EvalError Val) :
    onVals f (.error e) b = .error e := rfl
@[simp] theorem onVals_raise_right (f : Val → Val → Val) (v : Val) (e : EvalError) : onVals f (.ok v) (.error e) = .error e := rfl
@[simp] theorem applyWord_word (op : Operator) (f : Word → Val) (x : Word) : applyWord op f (.word x) = f x := rfl
@[simp] theorem applyBool_bool (op : Operator) (f : Bool → Bool) (x : Bool) : applyBool op f (.bool x) = .bool (f x) := rfl
@[simp] theorem applyWords_words (op : Operator) (f : Word → Word → Word) (x y : Word) :
    applyWords op f (.word x) (.word y) = .word (f x y) := rfl
@[simp] theorem applyCompare_words (op : Operator) (f : Val → Val → Bool) (x y : Word) :
    applyCompare op f (.word x) (.word y) = .bool (f (.word x) (.word y)) := rfl
@[simp] theorem applyCompare_bools (op : Operator) (f : Val → Val → Bool) (x y : Bool) :
    applyCompare op f (.bool x) (.bool y) = .bool (f (.bool x) (.bool y)) := rfl
@[simp] theorem applyCompare_opts (op : Operator) (f : Val → Val → Bool) (x y : Option Word) :
    applyCompare op f (.opt x) (.opt y) = .bool (f (.opt x) (.opt y)) := rfl
@[simp] theorem applyBools_bools (op : Operator) (f : Bool → Bool → Bool) (x y : Bool) :
    applyBools op f (.bool x) (.bool y) = .bool (f x y) := rfl

theorem onVal_error {f : Val → Except EvalError Val} {a : Except EvalError Val} {err : EvalError} (h : onVal f a = .error err) :
    a = .error err ∨ ∃ v, a = .ok v ∧ f v = .error err := by
  cases a with
  | error e => exact .inl h
  | ok v => exact .inr ⟨v, rfl, h⟩

theorem onVals_error {f : Val → Val → Val} {a b : Except EvalError Val} {err : EvalError} (h : onVals f a b = .error err) :
    a = .error err ∨ b = .error err := by
  obtain h | ⟨v, -, h⟩ := onVal_error h
  · exact .inl h
  · obtain h | ⟨w, -, h⟩ := onVal_error h
    · exact .inr h
    · simp at h

/-- A well-formed expression has a value unless it reads a variable never assigned (30_encoding.md R142). -/
theorem evalExpr_error {vars : List (Var × Val)} {e : Expr} (hw : e.wf = true) {err : EvalError}
    (h : evalExpr vars e = .error err) : err = .unwritten := by
  induction e with
  | lit w => simp [evalExpr] at h
  | litBool b => simp [evalExpr] at h
  | none => simp [evalExpr] at h
  | var x =>
    simp only [evalExpr] at h
    split at h <;> simp at h
    exact h.symm
  | eq a b iha ihb | ne a b iha ihb | and a b iha ihb | or a b iha ihb | addMod256 a b iha ihb | bitAnd a b iha ihb
  | bitOr a b iha ihb =>
    simp only [Expr.wf, Bool.and_eq_true] at hw
    exact (onVals_error h).elim (iha hw.1) (ihb hw.2)
  | not a iha | some a iha =>
    obtain h | ⟨v, -, h⟩ := onVal_error h
    · exact iha hw h
    · simp at h
  | slice a hi lo iha =>
    simp only [Expr.wf, Bool.and_eq_true, decide_eq_true_eq] at hw
    obtain h | ⟨v, -, h⟩ := onVal_error h
    · exact iha hw.1.1 h
    · simp [hw.1.2, hw.2] at h

/-- So has an operand, whatever the kind of its value (`evalWord` and `evalBool` are this too). -/
theorem evalTo_error {α : Type} {f : Val → α} {vars : List (Var × Val)} {e : Expr} (hw : e.wf = true) {err : EvalError}
    (h : evalTo f vars e = .error err) : err = .unwritten := by
  unfold evalTo at h
  split at h
  · simp at h
  · rename_i he; simp only [Except.error.injEq] at h; exact h ▸ evalExpr_error hw he

theorem evalFields_error {vars : List (Var × Val)} {fs : List (Field × Expr)} (hw : fieldExprsWf fs = true) {err : EvalError}
    (h : evalFields vars fs = .error err) : err = .unwritten := by
  induction fs with
  | nil => simp [evalFields] at h
  | cons p rest ih =>
    obtain ⟨f, e⟩ := p
    simp only [fieldExprsWf, List.all_cons, Bool.and_eq_true] at hw
    simp only [evalFields] at h
    split at h
    · rename_i he; simp only [Except.error.injEq] at h; exact h ▸ evalTo_error hw.1 he
    · split at h
      · rename_i he; simp only [Except.error.injEq] at h; exact ih hw.2 (h ▸ he)
      · simp at h

end Machine
end Sys2Proof
end

