-- ==== Sys2Proof/Tests/Slice0.lean ====
section
/-! SUPPORT. The model's own tests. Expected results are the spec's: the vectors of 95_test_vectors.md (their ids stand in the
comments), its example board, and the words written out from 30_encoding.md. The last part shows, for each statement with
hypotheses, states and operands that meet them. -/

namespace Sys2Proof
namespace Machine
namespace Tests

/-! ## Well-formed terms, and an ill-formed one for each check -/

theorem test_wf_value_patterns :
    ((Instr.writeIcCon 0 0x3FF).wf && (Instr.writeIcTar 0 0xFFF).wf && (Instr.writeIcSar 0 0x3FF).wf &&
      (Instr.writeIcEnable 0 1).wf && (Instr.writePad 0 0x1FF).wf && (Instr.writeCtrl 0 0x1F).wf &&
      (Instr.writeGpioOut 0x3FFFFFFF).wf && (Instr.writeGpioOeClr 0x3FFFFFFF).wf) = true := by decide
theorem test_wf_refuses_con : (Instr.writeIcCon 0 0x400).wf = false := by decide
theorem test_wf_refuses_tar : (Instr.writeIcTar 0 0x1000).wf = false := by decide
theorem test_wf_refuses_sar : (Instr.writeIcSar 0 0x400).wf = false := by decide
theorem test_wf_refuses_enable : (Instr.writeIcEnable 0 2).wf = false := by decide
theorem test_wf_refuses_pad : (Instr.writePad 0 0x200).wf = false := by decide
theorem test_wf_refuses_ctrl : (Instr.writeCtrl 0 0x20).wf = false := by decide
theorem test_wf_refuses_gpio :
    ((Instr.writeGpioOut 0x40000000).wf || (Instr.writeGpioOutSet 0x40000000).wf ||
      (Instr.writeGpioOutClr 0x80000000).wf || (Instr.writeGpioOe 0x40000000).wf ||
      (Instr.writeGpioOeSet 0x40000000).wf || (Instr.writeGpioOeClr 0x80000000).wf) = false := by decide
theorem test_wf_refuses_foreign_field : (Instr.write (.icTar 0) (.fields [(.enable, .lit 1)])).wf = false := by decide
theorem test_wf_refuses_repeated_field : (Instr.modify (.pad 0) [(.ie, .lit 1), (.ie, .lit 0)]).wf = false := by decide
theorem test_wf_refuses_slice : (Instr.writeByte none (.slice (.lit 0) 3 4)).wf = false := by decide
theorem test_wf_refuses_high_slice : (Instr.writeByte none (.slice (.lit 0) 32 0)).wf = false := by decide
theorem test_wf_refuses_missing_label : programWf [⟨none, .goto 7⟩] = false := by decide
theorem test_wf_refuses_repeated_label : programWf [⟨some 1, .halt⟩, ⟨some 1, .halt⟩] = false := by decide
theorem test_wf_program : programWf [⟨some 1, .ifGoto (.litBool true) 1⟩, ⟨none, .halt⟩] = true := by decide

/-! ## Decoding: each row's access written out from 30_encoding.md R110 to R112, R115 -/

theorem test_decode_unit_reads :
    decode (.read none 0x40090000 4) = .ok (.readIcCon none 0) ∧
    decode (.read none 0x40098004 4) = .ok (.readIcTar none 1) ∧
    decode (.read none 0x40090008 4) = .ok (.readIcSar none 0) ∧
    decode (.read (some 3) 0x40098010 4) = .ok (.readIcDataCmd (some 3) 1) ∧
    decode (.read none 0x40090034 4) = .ok (.readIcRawIntrStat none 0) ∧
    decode (.read none 0x40098050 4) = .ok (.readIcClrRdReq none 1) ∧
    decode (.read none 0x40090054 4) = .ok (.readIcClrTxAbrt none 0) ∧
    decode (.read none 0x4009806C 4) = .ok (.readIcEnable none 1) ∧
    decode (.read none 0x40090070 4) = .ok (.readIcStatus none 0) ∧
    decode (.read none 0x40098080 4) = .ok (.readIcTxAbrtSource none 1) ∧
    decode (.read none 0x4009009C 4) = .ok (.readIcEnableStatus none 0) := by decide

theorem test_decode_unit_writes :
    decode (.write 0x40090000 4 0x65) = .ok (.writeIcCon 0 0x65) ∧
    decode (.write 0x40098004 4 0xC2A) = .ok (.writeIcTar 1 0xC2A) ∧
    decode (.write 0x40098008 4 0x2A) = .ok (.writeIcSar 1 0x2A) ∧
    decode (.write 0x4009006C 4 0x1) = .ok (.writeIcEnable 0 1) := by decide

/-- Vectors K1 to K10: bits 31:8 select the form. -/
theorem test_decode_command_words :
    decode (.write 0x40090010 4 0x2A5) = .ok (.writeIcDataCmdCw 0 0xA5) ∧
    decode (.write 0x40090010 4 0x200) = .ok (.writeIcDataCmdCw 0 0x00) ∧
    decode (.write 0x40098010 4 0x2FF) = .ok (.writeIcDataCmdCw 1 0xFF) ∧
    decode (.write 0x40090010 4 0x300) = .ok (.writeIcDataCmdCr 0 0x00) ∧
    decode (.write 0x40090010 4 0x3FF) = .ok (.writeIcDataCmdCr 0 0xFF) ∧
    decode (.write 0x40098010 4 0x0A6) = .ok (.writeIcDataCmdTd 1 0xA6) ∧
    decode (.write 0x40098010 4 0x000) = .ok (.writeIcDataCmdTd 1 0x00) ∧
    decode (.write 0x40090010 4 0x6A5) = .error (.noForm 0 0x6A5) ∧
    decode (.write 0x40090010 4 0x1A5) = .error (.noForm 0 0x1A5) ∧
    decode (.write 0x40098010 4 0x800) = .error (.noForm 1 0x800) := by decide

theorem test_decode_pins :
    decode (.read none 0x40038004 4) = .ok (.readPad none 0) ∧
    decode (.write 0x40038078 4 0x5A) = .ok (.writePad 29 0x5A) ∧
    decode (.read none 0x400280EC 4) = .ok (.readCtrl none 29) ∧
    decode (.write 0x40028024 4 3) = .ok (.writeCtrl 4 3) ∧
    decode (.read none 0xD0000010 4) = .ok (.readGpioOut none) ∧
    decode (.write 0xD0000010 4 1) = .ok (.writeGpioOut 1) ∧
    decode (.write 0xD0000018 4 1) = .ok (.writeGpioOutSet 1) ∧
    decode (.write 0xD0000020 4 1) = .ok (.writeGpioOutClr 1) ∧
    decode (.read none 0xD0000030 4) = .ok (.readGpioOe none) ∧
    decode (.write 0xD0000030 4 1) = .ok (.writeGpioOe 1) ∧
    decode (.write 0xD0000038 4 1) = .ok (.writeGpioOeSet 1) ∧
    decode (.write 0xD0000040 4 1) = .ok (.writeGpioOeClr 1) := by decide

/-- Vectors X2 to X7, X9, X10, X12, and a read of a write-only register. -/
theorem test_decode_refusals :
    decode (.read none 0x40090072 4) = .error (.access 0x40090072) ∧
    decode (.read none 0x40090070 1) = .error (.access 0x40090070) ∧
    decode (.write 0x40090070 4 0) = .error (.unadmitted 0x40090070) ∧
    decode (.read none 0x40090030 4) = .error (.unadmitted 0x40090030) ∧
    decode (.write 0x40092010 4 0) = .error (.unadmitted 0x40092010) ∧
    decode (.read none 0x40038000 4) = .error (.unadmitted 0x40038000) ∧
    decode (.read none 0x4003807C 4) = .error (.unadmitted 0x4003807C) ∧
    decode (.read none 0x40028020 4) = .error (.unadmitted 0x40028020) ∧
    decode (.write 0x40000000 4 0) = .error (.unadmitted 0x40000000) ∧
    decode (.read none 0xD0000018 4) = .error (.unadmitted 0xD0000018) := by decide

/-- R86, D5: a reserved bit of IC_DATA_CMD is the decoder's (log 33). -/
theorem test_decode_reserved_command_bits :
    decode (.write 0x40090010 4 0x12A5) = .error (.unadmitted 0x40090010) ∧
    decode (.write 0x40098010 4 0x80000000) = .error (.unadmitted 0x40098010) := by decide

/-- F2: a misaligned write with a reserved bit is the access fault. -/
theorem test_decode_priority : decode (.write 0x40090002 4 0x400) = .error (.access 0x40090002) := by decide

/-- A table word of 32 bits is a command word; a longer one carries its address (log 22). -/
theorem test_table_words :
    decodeTableWord 32 0x200 = some (.writeIcDataCmdCw 0 0) ∧ decodeTableWord 32 0x300 = some (.writeIcDataCmdCr 0 0) ∧
    decodeTableWord 32 0x0 = some (.writeIcDataCmdTd 0 0) ∧
    decodeTableWord 72 (4 * 2 ^ 65 + 0x40038014 * 2 ^ 32 + 0x5A) = some (.writePad 4 0x5A) ∧
    decodeTableWord 72 (4 * 2 ^ 65 + 2 ^ 64 + 0x40090070 * 2 ^ 32) = some (.readIcStatus none 0) := by decide

/-! ## States to test on -/

/-- Whether an outcome is a next state with a property. -/
def after (o : Outcome) (p : State → Bool) : Bool :=
  match o with
  | .next t => p t
  | _ => false

/-- Whether an outcome is the entry of a fault. -/
def faults (o : Outcome) (f : Fault) : Bool := after o fun t => t.fault == some f

/-- Reset on the example board. -/
def demo : State := { State.reset with board := Config.exampleBoard }

/-- Every pin carries its I2C signal, with its pull-up on. -/
def demoPins : State := { demo with pads := Vector.replicate 30 0x5A, ctrls := Vector.replicate 30 3 }

/-- An idle enabled controller with target address 0x2A. -/
def ctrlOn : UnitState := { UnitState.reset with icTar := 0x2A, icEnable := 1, role := .controller }

/-- An idle enabled target with address 0x2A. -/
def tgtOn : UnitState := { UnitState.reset with icCon := 0x24, icSar := 0x2A, icEnable := 1, role := .target }

/-- Controller 0 and target 1 enabled on the example pins. -/
def demoOn : State := { demoPins with units := #v[ctrlOn, tgtOn] }

def cw (b : Byte) : Cmd := ⟨b, false, true, false⟩
def cr : Cmd := ⟨0, true, true, false⟩
def td (b : Byte) : Cmd := ⟨b, false, false, false⟩

/-- `demoOn` with other units. -/
def withUnits (a b : UnitState) : State := { demoOn with units := #v[a, b] }

/-- A state at step `k` of an operation. -/
def atStep (s : State) (k : Nat) : State := { s with pc := ⟨s.pc.stmt, k⟩ }

/-- A state whose current statement is `p`. -/
def running (p : Stmt) (s : State) : State := { s with program := [⟨none, p⟩], pc := ⟨0, s.pc.step⟩ }

/-! ## Access rows -/

/-- A1, A2. -/
theorem test_read_con : after (exec (.readIcCon (some 0) 0) demo) (fun t => t.vars == [(0, .word 0x65)]) = true := by decide
theorem test_read_pad : after (exec (.readPad (some 0) 4) demo) (fun t => t.vars == [(0, .word 0x116)]) = true := by decide
theorem test_read_ctrl : after (exec (.readCtrl (some 0) 4) demo) (fun t => t.vars == [(0, .word 0x1F)]) = true := by decide
theorem test_read_tar : after (exec (.readIcTar (some 0) 1) demo) (fun t => t.vars == [(0, .word 0x55)]) = true := by decide
theorem test_read_sar : after (exec (.readIcSar (some 0) 1) demoOn) (fun t => t.vars == [(0, .word 0x2A)]) = true := by decide
theorem test_read_enable : after (exec (.readIcEnable (some 0) 1) demoOn) (fun t => t.vars == [(0, .word 1)]) = true := by decide
theorem test_read_out :
    after (exec (.readGpioOut (some 0)) { demo with sioOut := 0x02000000 }) (fun t => t.vars == [(0, .word 0x02000000)]) = true := by
  decide
theorem test_read_oe :
    after (exec (.readGpioOe (some 0)) { demo with sioOe := 0x20000001 }) (fun t => t.vars == [(0, .word 0x20000001)]) = true := by
  decide

/-- A11 and a write while disabled. -/
theorem test_write_tar : after (exec (.writeIcTar 0 0x2B) demo) (fun t => (t.unit 0).icTar == 0x2B && (t.unit 1).icTar == 0x55) = true := by
  decide
theorem test_write_tar_enabled : faults (exec (.writeIcTar 0 0x2B) demoOn) (.cfgWhileEnabled 0 (.icTar 0)) = true := by decide
theorem test_write_con : after (exec (.writeIcCon 1 0x24) demo) (fun t => (t.unit 1).icCon == 0x24 && (t.unit 0).icCon == 0x65) = true := by
  decide
theorem test_write_sar_enabled : faults (exec (.writeIcSar 1 0x2B) demoOn) (.cfgWhileEnabled 1 (.icSar 1)) = true := by decide
theorem test_write_sar : after (exec (.writeIcSar 1 0x2A) demo) (fun t => (t.unit 1).icSar == 0x2A) = true := by decide

theorem test_write_pad : after (exec (.writePad 4 0x5A) demo) (fun t => t.pad 4 == 0x5A && t.pad 5 == 0x116) = true := by decide
theorem test_write_ctrl : after (exec (.writeCtrl 29 3) demo) (fun t => t.ctrl 29 == 3 && t.ctrl 28 == 0x1F) = true := by decide
theorem test_write_out : after (exec (.writeGpioOut 0x3FFFFFFF) demo) (fun t => t.sioOut == 0x3FFFFFFF && t.sioOe == 0) = true := by decide
theorem test_write_oe : after (exec (.writeGpioOe 1) demo) (fun t => t.sioOe == 1 && t.sioOut == 0) = true := by decide

/-- A10. -/
theorem test_oe_set : after (exec (.writeGpioOeSet 0x02000000) { demo with sioOe := 1 }) (fun t => t.sioOe == 0x02000001) = true := by decide
theorem test_oe_clr : after (exec (.writeGpioOeClr 0x02000000) { demo with sioOe := 0x02000001 }) (fun t => t.sioOe == 1) = true := by decide
theorem test_out_set : after (exec (.writeGpioOutSet 0x2) { demo with sioOut := 1 }) (fun t => t.sioOut == 3) = true := by decide
theorem test_out_clr : after (exec (.writeGpioOutClr 0x2) { demo with sioOut := 3 }) (fun t => t.sioOut == 1) = true := by decide

/-- A22, A23, A24, A25, A26. -/
theorem test_push_cw : after (exec (.writeIcDataCmdCw 0 0xA5) demoOn) (fun t => (t.unit 0).txf == [cw 0xA5]) = true := by decide
theorem test_push_cr_overlapped :
    faults (exec (.writeIcDataCmdCr 0 0) (withUnits { ctrlOn with txf := [cw 0xA5] } tgtOn)) (.overlappedTransaction 0) = true := by decide
theorem test_push_cr : after (exec (.writeIcDataCmdCr 0 0) demoOn) (fun t => (t.unit 0).txf == [cr]) = true := by decide
theorem test_push_cw_aborted :
    faults (exec (.writeIcDataCmdCw 0 0xA5) (withUnits { ctrlOn with txAbrt := true } tgtOn)) (.writeWhileAborted 0) = true := by decide
theorem test_push_td_full :
    faults (exec (.writeIcDataCmdTd 1 0x11) (withUnits ctrlOn { tgtOn with txf := List.replicate 16 (td 0) })) (.txOverflow 1) = true := by
  decide
theorem test_push_td : after (exec (.writeIcDataCmdTd 1 0x22) (withUnits ctrlOn { tgtOn with txf := [td 0x11] }))
    (fun t => (t.unit 1).txf == [td 0x11, td 0x22]) = true := by decide

/-- A28, A27. -/
theorem test_pop : after (exec (.readIcDataCmd none 1) (withUnits ctrlOn { tgtOn with rxf := [0x00, 0x11] }))
    (fun t => (t.unit 1).rxf == [0x11]) = true := by decide
theorem test_pop_empty : faults (exec (.readIcDataCmd none 1) demoOn) (.rxUnderflow 1) = true := by decide

/-- A29, A30. -/
theorem test_clr_rd_req : after (exec (.readIcClrRdReq none 1) (withUnits ctrlOn { tgtOn with rdReq := true, txAbrt := true }))
    (fun t => !(t.unit 1).rdReq && (t.unit 1).txAbrt) = true := by decide
theorem test_clr_tx_abrt :
    after (exec (.readIcClrTxAbrt none 0) (withUnits { ctrlOn with txAbrt := true, abrtSrc := 1, rdReq := true } tgtOn))
      (fun t => !(t.unit 0).txAbrt && (t.unit 0).abrtSrc == 0 && (t.unit 0).rdReq) = true := by decide

/-- A31, A32: bits 4:1. -/
theorem test_status_full : statusWord { ctrlOn with txf := List.replicate 16 (cw 0) } 0 = 0 := by decide
theorem test_status_received : statusWord { ctrlOn with rxf := List.replicate 16 0 } 0x61 = 0x7F := by decide
theorem test_status_reads : exec (.readIcStatus none 0) demo = .next (demo.drew 1).finish := rfl

/-- A33: bit 6 = 1, bit 5 = 0, bits 31:13 = 0, whatever is drawn. -/
theorem test_raw_intr_stat (d : Word) : rawIntrStatWord { ctrlOn with txAbrt := true } d &&& 0xFFFFE060#32 = 0x40 := by
  rw [rawIntrStatWord_and _ _ (by decide)]; decide
theorem test_raw_reads : exec (.readIcRawIntrStat none 0) demo = .next (demo.drew 1).finish := rfl

/-- A34, A35. -/
theorem test_abort_source (d : Word) : txAbrtSourceWord { ctrlOn with abrtSrc := 1 } d &&& 0x007FFFFF#32 = 1 :=
  (txAbrtSourceWord_tracked _ d).trans (by decide)
theorem test_abort_source_reads : exec (.readIcTxAbrtSource none 0) demo = .next (demo.drew 1).finish := rfl
theorem test_enable_status (d : Word) : enableStatusWord tgtOn d &&& 0xFFFFFFF9#32 = 1 :=
  (enableStatusWord_tracked _ d).trans (by decide)
theorem test_enable_status_reads : exec (.readIcEnableStatus none 0) demo = .next (demo.drew 1).finish := rfl

/-! ## IC_ENABLE -/

/-- A12. -/
theorem test_enable : after (exec (.writeIcEnable 0 1) (withUnits { UnitState.reset with icTar := 0x2A } tgtOn))
    (fun t => t.unit 0 == ctrlOn) = true := by decide

/-- A13, A14, A18: configuration checks come before the pin check. -/
theorem test_enable_refuses_configurations :
    ([0x64, 0x25, 0x75].all fun con =>
      faults (exec (.writeIcEnable 0 1) { demo with units := #v[{ UnitState.reset with icCon := con, icTar := 0x2A }, tgtOn] })
        (.illegalConfig 0)) = true := by decide

/-- A15. -/
theorem test_enable_refuses_addresses :
    ([0x07, 0x78, 0x12A].all fun a =>
      faults (exec (.writeIcEnable 0 1) (withUnits { UnitState.reset with icTar := a } tgtOn)) (.illegalConfig 0)) = true := by decide

/-- A16. -/
theorem test_enable_admits_addresses :
    ([0x08, 0x77].all fun a =>
      after (exec (.writeIcEnable 0 1) (withUnits { UnitState.reset with icTar := a } tgtOn))
        (fun t => (t.unit 0).role == .controller)) = true := by decide

/-- A17. -/
theorem test_enable_needs_pins :
    faults (exec (.writeIcEnable 0 1) { demo with units := #v[{ UnitState.reset with icTar := 0x2A }, tgtOn] }) (.pinNotReady 0) = true := by
  decide

/-- A19, A20. -/
theorem test_disable_active :
    faults (exec (.writeIcEnable 0 0) (withUnits { ctrlOn with txf := [cw 0x11] } tgtOn)) (.disableActive 0) = true := by decide
theorem test_disable : after (exec (.writeIcEnable 1 0) (withUnits ctrlOn { tgtOn with rxf := [0x11] }))
    (fun t => (t.unit 1).rxf == [] && (t.unit 1).role == .none && (t.unit 1).icEnable == 0 && (t.unit 1).icSar == 0x2A) = true := by decide

/-! ## The access layer -/

/-- A3, A4. -/
theorem test_write_fields :
    after (exec (.write (.icTar 0) (.fields [(.tarAddress, .lit 0x2A)])) demo) (fun t => (t.unit 0).icTar == 0x2A) = true := by decide
theorem test_modify :
    after (execTimes 2 (.modify (.icCon 1) [(.masterMode, .lit 0), (.icSlaveDisable, .lit 0)]) demo)
      (fun t => (t.unit 1).icCon == 0x24 && t.latch == 0x65 && t.pc == ⟨1, 0⟩) = true := by decide

/-- A5 to A9. -/
theorem test_write_unadmitted :
    faults (exec (.write (.icCon 0) (.value (.lit 0x465))) demo) (.unadmitted 0x40090000) &&
    faults (exec (.write (.icEnable 0) (.value (.lit 2))) demo) (.unadmitted 0x4009006C) &&
    faults (exec (.write (.pad 4) (.value (.lit 0x200))) demo) (.unadmitted 0x40038014) &&
    faults (exec (.write (.ctrl 4) (.value (.lit 0x3003))) demo) (.unadmitted 0x40028024) &&
    faults (exec (.write .gpioOutSet (.value (.lit 0x40000000))) demo) (.unadmitted 0xD0000018) = true := by decide

/-- A21, K11, K12. -/
theorem test_write_data_checks :
    faults (exec (.write (.icDataCmd 0) (.value (.lit 0x6A5))) demo) (.unitDisabled 0) &&
    faults (exec (.write (.icDataCmd 0) (.value (.lit 0xA5))) demoOn) (.unadmittedCmd 0 0xA5) &&
    faults (exec (.write (.icDataCmd 1) (.value (.lit 0x2A5))) demoOn) (.unadmittedCmd 1 0x2A5) = true := by decide
theorem test_write_data_reserved :
    faults (exec (.write (.icDataCmd 0) (.value (.lit 0x1000))) demo) (.unadmitted 0x40090010) = true := by decide

/-- `x :=` before an operation without a result: the operation runs, and no other variable changes (log 35). -/
theorem test_write_with_variable :
    after (exec (.write (.pad 4) (.value (.lit 0x5A)) (some 1)) demo) (fun t => t.pad 4 == 0x5A && t.pc == ⟨1, 0⟩) = true := by decide
theorem test_write_with_variable_other (s : State) : lookupVar 2 (s.retNone (some 1)).vars = lookupVar 2 s.vars :=
  State.lookupVar_noResult (x := some 1) (by decide)
theorem test_write_with_variable_faults :
    faults (exec (.write (.pad 4) (.value (.lit 0x200)) (some 1)) demo) (.unadmitted 0x40038014) = true := by decide
theorem test_read : after (exec (.read (some 2) (.icCon 0)) demo) (fun t => t.vars == [(2, .word 0x65)]) = true := by decide
theorem test_read_write_only : faults (exec (.read none .gpioOutSet) demo) (.unadmitted 0xD0000018) = true := by decide
theorem test_modify_refuses_status : faults (exec (.modify (.icDataCmd 0) []) demo) (.unadmitted 0x40090010) = true := by decide

/-- W1, W2, W4: polls of tracked bits, whatever is drawn. -/
theorem test_wait_true : exec (.waitForCondition (.icStatus 0) (.lit 2) (.lit 2)) demo = .next (demo.drew 1).finish :=
  if_pos ((statusWord_poll_tfnf _ _).2 (rfl))
theorem test_wait_false : exec (.waitForCondition (.icStatus 1) (.lit 8) (.lit 8)) demoOn = .next (demoOn.drew 1) :=
  if_neg (mt (statusWord_poll_rfne _ _).1 (by decide))

/-- W3. -/
theorem test_wait_refused :
    faults (exec (.waitForCondition (.icDataCmd 0) (.lit 1) (.lit 1)) demo) (.unadmitted 0x40090010) = true := by decide

/-! ## Pins -/

/-- P-1. -/
theorem test_signal_pin :
    after (execTimes 5 (.configureSignalPin (.lit 4) (.litBool true)) demo)
      (fun t => t.pad 4 == 0x5A && t.latch == 0x15A && t.ctrl 4 == 3 && t.pinRole 4 == .i2c 0 .sda && t.pc == ⟨1, 0⟩) = true := by decide

/-- P-5: OD is untouched. -/
theorem test_signal_pin_output_disabled :
    after (execTimes 5 (.configureSignalPin (.lit 4) (.litBool true)) (demo.setPad 4 0x196))
      (fun t => t.pad 4 == 0xDA && t.pinRole 4 == .unconfigured) = true := by decide

/-- P-4. -/
theorem test_signal_pin_29 : (demoPins.pinRole 29 == .i2c 0 .scl && demoPins.pinRole 3 == .i2c 1 .scl) = true := by decide

/-- P-6. -/
theorem test_digital_pin :
    after (execTimes 6 (.configureDigitalOutputPin (.lit 25)) demo)
      (fun t => t.pad 25 == 0x12 && t.ctrl 25 == 5 && t.sioOe == 0x02000000 && t.sioOut == 0 && t.pinRole 25 == .digitalOutput) = true := by
  decide

/-- P-7, F3. -/
theorem test_pin_out_of_range :
    faults (exec (.configureDigitalOutputPin (.lit 30)) demo) .opArg &&
    faults (exec (.configureSignalPin (.lit 40) (.litBool true)) demo) .opArg = true := by decide

/-- P-9. -/
theorem test_bus_goes_with_a_pin :
    after (execTimes 6 (.configureDigitalOutputPin (.lit 4)) demoOn) (fun t => t.pinRole 4 == .digitalOutput && !t.busUp 0) = true := by
  decide

/-! ## Controller and target -/

/-- C1, C3: the second call disables and re-enables. -/
theorem test_configure_controller :
    after (execTimes 7 (.configureAsController (.lit 0x2A)) demoPins)
      (fun t => t.unit 0 == ctrlOn && t.unit 1 == UnitState.reset && t.pc == ⟨1, 0⟩) = true := by decide
theorem test_configure_controller_again :
    after (execTimes 7 (.configureAsController (.lit 0x2A)) demoOn)
      (fun t => (t.unit 0).icTar == 0x2A && (t.unit 0).role == .controller && (t.unit 0).icEnable == 1 && (t.unit 0).icCon == 0x65) = true := by
  decide

/-- C2, C4. -/
theorem test_configure_controller_refused :
    faults (exec (.configureAsController (.lit 0x80)) demoPins) .opArg &&
    faults (execTimes 7 (.configureAsController (.lit 0)) demoPins) (.illegalConfig 0) = true := by decide

/-- T1. -/
theorem test_configure_target :
    after (execTimes 7 (.configureAsTarget (.lit 0x2A)) demoPins)
      (fun t => t.unit 1 == tgtOn && t.targetAddress == 0x2A && t.unit 0 == UnitState.reset) = true := by decide

/-- T3. -/
theorem test_configure_target_refused :
    faults (execTimes 7 (.configureAsTarget (.lit 0x7F)) demoPins) (.illegalConfig 1) = true := by decide

/-- C5, C6: the command word of writeByte. -/
theorem test_write_byte_pushes :
    after (exec (.writeByte none (.lit 0xFF)) (atStep demoOn 1)) (fun t => (t.unit 0).txf == [cw 0xFF] && t.pc == ⟨0, 2⟩) = true := by decide
theorem test_write_byte_disabled : faults (exec (.writeByte none (.lit 0x11)) (atStep demo 1)) (.unitDisabled 0) = true := by decide

/-- C10. -/
theorem test_request : after (exec .requestByteFromMemory (atStep demoOn 1)) (fun t => (t.unit 0).txf == [cr] && t.requested) = true := by
  decide

/-- C11, C12. -/
theorem test_receive_unsolicited :
    exec (.receiveRequestedBytesFromMemory (some 1)) demoOn = .next { demoOn with vars := [(1, .opt none)], pc := ⟨1, 0⟩ } := rfl
theorem test_receive_requested :
    after (exec (.receiveRequestedBytesFromMemory none) (atStep { withUnits { ctrlOn with rxf := [0x5A] } tgtOn with requested := true } 2))
      (fun t => (t.unit 0).rxf == [] && t.requested && t.pc == ⟨1, 0⟩) = true := by decide

/-- T4: the increment wraps. -/
theorem test_receive_bytes (d : Word) :
    ((dataCmdWord 0xFF d).truncate 8 + 1 : Byte) = 0x00 ∧ ((dataCmdWord 0x7F d).truncate 8 + 1 : Byte) = 0x80 := by
  rw [dataCmdWord_truncate, dataCmdWord_truncate]; decide
theorem test_receive_bytes_pops :
    after (exec .receiveBytesToMemory (atStep (withUnits ctrlOn { tgtOn with rxf := [0xA5] }) 1))
      (fun t => (t.unit 1).rxf == [] && t.memoryValue.isSome) = true := by decide

/-- T5, T6. -/
theorem test_serve_nothing_stored :
    after (exec .serveBytesFromMemory (atStep demoOn 2)) (fun t => (t.unit 1).txf == [td 0x00] && t.memoryValue == none) = true := by decide
theorem test_serve_stored :
    after (exec .serveBytesFromMemory (atStep { demoOn with memoryValue := some 0xA6 } 2))
      (fun t => (t.unit 1).txf == [td 0xA6] && t.memoryValue == some 0xA6) = true := by decide

/-! ## The bus -/

/-- B1, B2, B3, B4. -/
theorem test_bus_write :
    busTurn (.write 0) (withUnits { ctrlOn with txf := [cw 0x5A] } tgtOn) = .next (withUnits ctrlOn { tgtOn with rxf := [0x5A] }) := rfl
theorem test_bus_write_no_ack :
    busTurn (.write 0) (withUnits { ctrlOn with txf := [cw 0x5A] } { tgtOn with icSar := 0x2B }) =
      .next (withUnits { ctrlOn with txAbrt := true, abrtSrc := 1 } { tgtOn with icSar := 0x2B }) := rfl
theorem test_bus_write_disabled_target :
    busTurn (.write 0) (withUnits { ctrlOn with txf := [cw 0x5A] } UnitState.reset) =
      .next (withUnits { ctrlOn with txAbrt := true, abrtSrc := 1 } UnitState.reset) := rfl
theorem test_bus_write_full :
    faults (busTurn (.write 0) (withUnits { ctrlOn with txf := [cw 0x5A] } { tgtOn with rxf := List.replicate 16 0 }))
      (.targetRxOverflow 1) = true := by decide

/-- B5, B6. -/
theorem test_bus_read_address :
    busTurn (.readAddr 0) (withUnits { ctrlOn with txf := [cr] } tgtOn) =
      .next { withUnits ctrlOn { tgtOn with rdReq := true } with phase := .readPending 0 1 } := rfl
theorem test_bus_read_address_stale :
    faults (busTurn (.readAddr 0) (withUnits { ctrlOn with txf := [cr] } { tgtOn with txf := [td 0x11] })) (.targetTxStale 1) = true := by
  decide

/-- B7, B8, B9. -/
theorem test_clock_stretch :
    ([BusStep.write 0, .readAddr 0, .readData 0, .lost 0, .write 1, .readAddr 1, .readData 1, .lost 1].any fun b =>
      { demoOn with phase := .readPending 0 1 }.busEnabled b) = false := by decide
theorem test_bus_read_data :
    busTurn (.readData 0) { withUnits ctrlOn { tgtOn with txf := [td 0xA6], rdReq := true } with phase := .readPending 0 1 } =
      .next (withUnits { ctrlOn with rxf := [0xA6] } { tgtOn with rdReq := true }) := rfl
theorem test_bus_read_data_full :
    after (busTurn (.readData 0) { withUnits { ctrlOn with rxf := List.replicate 16 0 } { tgtOn with txf := [td 0xA6] } with
      phase := .readPending 0 1 }) (fun t => t.fault == some (.ctrlRxOverflow 0) && (t.unit 1).txf == [td 0xA6]) = true := by decide

/-- B11: no pull-up anywhere; B12: external pull-ups. -/
def noPulls (external : Bool) : State :=
  { withUnits { ctrlOn with txf := [cw 0x5A] } tgtOn with
    pads := Vector.replicate 30 0x52, board := { Config.exampleBoard with externalPullups := external } }
theorem test_bus_lost_enabled :
    ((noPulls false).busEnabled (.lost 0) && !(noPulls false).busEnabled (.write 0)) = true := by decide
theorem test_bus_lost :
    after (busTurn (.lost 0) (noPulls false)) (fun t => (t.unit 0).txAbrt && (t.unit 0).txf == []) = true := by decide
theorem test_external_pullups :
    ((noPulls true).busEnabled (.write 0) && !(noPulls true).busEnabled (.lost 0)) = true := by decide

/-! ## Caller and step -/

theorem test_caller_assign :
    cpuStep (running (.assign 1 (.addMod256 (.lit 0xFF) (.lit 1))) demo) =
      .next { running (.assign 1 (.addMod256 (.lit 0xFF) (.lit 1))) demo with vars := [(1, .word 0)], pc := ⟨1, 0⟩ } := rfl
theorem test_caller_compare :
    evalExpr [(1, .opt (some 0xA6)), (2, .bool true)] (.and (.var 2) (.eq (.var 1) (.some (.lit 0xA6)))) = .ok (.bool true) := by decide
theorem test_caller_slice : evalExpr [] (.slice (.lit 0x8A5) 7 0) = .ok (.word 0xA5) := by decide
/-- A value of the wrong kind: the expression has a value and the statement runs. -/
theorem test_wrong_kind :
    (∃ v, evalExpr [] (.addMod256 (.litBool true) (.lit 1)) = .ok v) ∧ (∃ v, evalExpr [] (.eq (.lit 0xA5) (.some (.lit 0xA5))) = .ok v) ∧
      (∃ t, evalBool [] .none = .ok t) ∧ (∃ w, evalWord [] (.litBool true) = .ok w) := ⟨⟨_, rfl⟩, ⟨_, rfl⟩, ⟨_, rfl⟩, ⟨_, rfl⟩⟩
theorem test_wrong_kind_runs :
    cpuStep (running (.assign 1 (.not (.lit 1))) demo) =
      .next { running (.assign 1 (.not (.lit 1))) demo with vars := [(1, Config.wrongKind .not [.word 1])], pc := ⟨1, 0⟩ } ∧
    after (exec (.modify (.pad 4) [(.iso, .none)]) demo) (fun t => t.pc.step == 1 && t.fault == none) = true := ⟨rfl, by decide⟩
theorem test_boolean_field :
    evalFields [] [(.pue, .litBool true), (.iso, .litBool false)] = .ok [(.pue, 1), (.iso, 0)] := by decide
theorem test_stop : step { demo with fault := some .opArg } = .fault .opArg := rfl
theorem test_fetch_word : after (step (State.reset.withFetchWord 32 0x2A5)) (fun t => t.fault == some (.unitDisabled 0)) = true := by decide

/-! ## Hypotheses met: for each statement with hypotheses a state and operands that meet them, clause by clause -/

theorem test_demoOn_registers : RegistersInv demoOn :=
  ⟨by decide, by decide, by decide, by decide, by decide, by decide, by decide, by decide, by decide⟩

theorem test_ctrlOn_legal : UnitInv ctrlOn :=
  ⟨by decide, by decide, by decide, by decide, by decide, by decide, fun _ c h => by simp [ctrlOn, UnitState.reset] at h,
    fun _ c h => by simp [ctrlOn, UnitState.reset] at h, by decide⟩

theorem test_tgtOn_legal : UnitInv tgtOn :=
  ⟨by decide, by decide, by decide, by decide, by decide, by decide, fun _ c h => by simp [tgtOn, UnitState.reset] at h,
    fun _ c h => by simp [tgtOn, UnitState.reset] at h, by decide⟩

theorem test_resetUnit_legal : UnitInv UnitState.reset :=
  ⟨by decide, by decide, by decide, by decide, by decide, by decide, fun _ c h => by simp [UnitState.reset] at h,
    fun _ c h => by simp [UnitState.reset] at h, by decide⟩

theorem test_legal {s : State} (h0 : UnitInv (s.unit 0)) (h1 : UnitInv (s.unit 1)) (hp : s.phase = .idle) : ProtocolInv s :=
  ⟨fun u => by
    match u with
    | 0 => exact h0
    | 1 => exact h1, fun c t h => by rw [hp] at h; simp at h⟩

theorem test_demoOn_legal : ProtocolInv demoOn := test_legal test_ctrlOn_legal test_tgtOn_legal rfl

/-- Encoding. -/
theorem test_met_DecodeOfEncode :
    (Instr.writeIcDataCmdCw 0 0xA5).wf = true ∧ encode (.writeIcDataCmdCw 0 0xA5) = some (.write 0x40090010 4 0x2A5) := by decide
theorem test_met_EncodeOfDecode : decode (.write 0x40038078 4 0x1FF) = .ok (.writePad 29 0x1FF) := by decide
theorem test_met_RefusedAccess_width :
    demo.fault = none ∧ (running (.access (.read none 0x40090070 1)) demo).currentStmt = some (.access (.read none 0x40090070 1)) ∧
      (1 : Nat) ≠ 4 := by decide
theorem test_met_RefusedAccess_alignment :
    (running (.access (.write 0x40090073 4 0)) demo).currentStmt = some (.access (.write 0x40090073 4 0)) ∧
      (0x40090073 : Word) &&& 3 ≠ 0 := by decide
/-- The word after the last pad. -/
theorem test_met_RefusedAccess_unlisted : (0x4003807C : Word) &&& 3 = 0 ∧ ∀ r : Reg, r.addr ≠ 0x4003807C :=
  ⟨by decide, fun r h => absurd (h ▸ regAt_addr r) (by rw [show regAt 0x4003807C = none by decide]; simp)⟩
/-- A read of a write-only register, a write of a read-only one, and the lowest value outside each register's pattern. -/
theorem test_met_RefusedAccess_registers :
    (running (.access (.read none Reg.gpioOutSet.addr 4)) demo).currentStmt = some (.access (.read none Reg.gpioOutSet.addr 4)) ∧
      (running (.access (.write (Reg.icStatus 0).addr 4 0)) demo).currentStmt = some (.access (.write (Reg.icStatus 0).addr 4 0)) ∧
      (0x400 : Word) >>> 10 ≠ 0 ∧ (0x1000 : Word) >>> 12 ≠ 0 ∧ (0x2 : Word) >>> 1 ≠ 0 ∧ (0x200 : Word) >>> 9 ≠ 0 ∧
      (0x20 : Word) >>> 5 ≠ 0 ∧ (0x40000000 : Word) >>> 30 ≠ 0 := by decide
theorem test_refused_accesses :
    [Access.read none 0xD0000018 4, .write 0x40090070 4 0, .write 0x40090000 4 0x400, .write 0x40090010 4 0x1000, .write 0x4009006C 4 0x2,
      .write 0x40038014 4 0x200, .write 0x40028024 4 0x20, .write 0xD0000010 4 0x40000000].all (fun a =>
        match a with
        | .read _ addr _ | .write addr _ _ => faults (cpuStep (running (.access a) demo)) (.unadmitted addr)) = true := by decide
/-- Values of IC_DATA_CMD beside the three forms, at the ends of bits 11:8, on a disabled and on an enabled unit. -/
theorem test_met_RefusedAccess_noForm :
    ([0x1A5, 0x4FF, 0xFFF].all fun v : Word => v >>> 12 == 0 && v >>> 8 != 0 && v >>> 8 != 2 && v >>> 8 != 3 &&
      (running (.access (.write (Reg.icDataCmd 0).addr 4 v)) demo).currentStmt == some (.access (.write (Reg.icDataCmd 0).addr 4 v)) &&
      faults (cpuStep (running (.access (.write 0x40090010 4 v)) demo)) (.unitDisabled 0) &&
      faults (cpuStep (running (.access (.write 0x40090010 4 v)) demoOn)) (.unadmittedCmd 0 v)) = true ∧
      (demo.unit 0).icEnable.getLsbD 0 = false ∧ (demoOn.unit 0).icEnable.getLsbD 0 = true := by decide

/-- Steps of the CPU, of the bus, and of a stopped machine. -/
theorem test_met_StepRuns :
    (running (.instr (.writePad 4 0x5A)) demo).currentStmt = some (.instr (.writePad 4 0x5A)) ∧ demo.turn = .cpu ∧
      (running (.access (.write 0x40038014 4 0x5A)) demo).currentStmt = some (.access (.write 0x40038014 4 0x5A)) ∧
      decode (.write 0x40038014 4 0x5A) = .ok (.writePad 4 0x5A) := by decide
theorem test_met_StepRunsTheJointStep : ({ demo with turn := .bus (.write 0) } : State).turn = .bus (.write 0) ∧ demo.fault = none := by decide
theorem test_met_StoppedMachine : ({ demo with fault := some .opArg } : State).fault = some .opArg := rfl
theorem test_met_FaultEntry :
    ∃ t, step (running (.instr (.configureDigitalOutputPin (.lit 30))) demo) = .next t ∧ t.fault = some .opArg := ⟨_, rfl, rfl⟩

/-- Invariants and whole-machine rules: a step that changes what the rule speaks of. -/
theorem test_met_RegisterPatterns : RegistersInv demoOn ∧ ∃ t, step demoOn = .next t := ⟨test_demoOn_registers, _, rfl⟩
theorem test_met_ProtocolState : ProtocolInv demoOn ∧ ∃ t, step demoOn = .next t := ⟨test_demoOn_legal, _, rfl⟩
theorem test_met_ProgramAndBoard : ∃ t, step (running (.instr (.writePad 4 0x5A)) demo) = .next t ∧ t.pad 4 = 0x5A := ⟨_, rfl, rfl⟩
theorem test_met_JointStepFootprint :
    ∃ t, busTurn (.write 0) (withUnits { ctrlOn with txf := [cw 0x5A] } tgtOn) = .next t ∧ (t.unit 1).rxf = [0x5A] := ⟨_, rfl, rfl⟩
theorem test_met_InstructionsLeaveTheBus : ∃ t, exec (.writeIcDataCmdCr 0 0) demoOn = .next t ∧ (t.unit 0).txf = [cr] := ⟨_, rfl, rfl⟩
theorem test_met_Requested :
    ∃ t, step (running (.instr .requestByteFromMemory) (atStep demoOn 1)) = .next t ∧ t.requested = true ∧ demoOn.requested = false :=
  ⟨_, rfl, rfl, rfl⟩
theorem test_met_MemoryValue :
    ∃ t, step (running (.instr .receiveBytesToMemory) (atStep (withUnits ctrlOn { tgtOn with rxf := [0xA5] }) 1)) = .next t ∧
      t.memoryValue.isSome = true ∧ demoOn.memoryValue = none := ⟨_, rfl, rfl, rfl⟩
theorem test_met_TargetAddress :
    ∃ t, step (running (.instr (.configureAsTarget (.lit 0x2A))) (atStep demoPins 4)) = .next t ∧ t.targetAddress = 0x2A := ⟨_, rfl, rfl⟩
theorem test_met_StatusFlags_cpu :
    ∃ t, exec (.readIcClrTxAbrt none 0) (withUnits { ctrlOn with txAbrt := true } tgtOn) = .next t ∧ (t.unit 0).txAbrt = false := ⟨_, rfl, rfl⟩
theorem test_met_StatusFlags_rdReq :
    ∃ t, exec (.readIcClrRdReq none 1) (withUnits ctrlOn { tgtOn with rdReq := true }) = .next t ∧ (t.unit 1).rdReq = false := ⟨_, rfl, rfl⟩
theorem test_met_StatusFlags_serve :
    ∃ t, exec .serveBytesFromMemory (atStep (withUnits ctrlOn { tgtOn with rdReq := true }) 1) = .next t ∧ (t.unit 1).rdReq = false :=
  ⟨_, rfl, rfl⟩
theorem test_met_StatusFlags_writeByte :
    ∃ t, exec (.writeByte none (.lit 0)) (atStep (withUnits { ctrlOn with txAbrt := true } tgtOn) 4) = .next t ∧
      (t.unit 0).txAbrt = false := ⟨_, rfl, rfl⟩
theorem test_met_StatusFlags_disable :
    ∃ t, exec (.writeIcEnable 0 0) demoOn = .next t ∧ (demoOn.unit 0).enabled = true ∧ (t.unit 0).enabled = false :=
  ⟨_, rfl, by decide, by decide⟩
theorem test_met_StatusFlags_other :
    fetchInstr (running (.access (.write 0x40090010 4 0x1A5)) demoOn) = none ∧
      ∃ t, cpuStep (running (.access (.write 0x40090010 4 0x1A5)) demoOn) = .next t := ⟨by decide, _, rfl⟩
theorem test_met_StatusFlags_lost :
    ∃ t, busTurn (.lost 0) (noPulls false) = .next t ∧ (t.unit 0).txAbrt = true ∧ (t.unit 0).txf = [] := ⟨_, rfl, rfl, rfl⟩
theorem test_met_StatusFlags_readAddr :
    ∃ t, busTurn (.readAddr 0) (withUnits { ctrlOn with txf := [cr] } UnitState.reset) = .next t ∧ (t.unit 0).txAbrt = true ∧
      (withUnits { ctrlOn with txf := [cr] } UnitState.reset).busUp 0 = true ∧
      (withUnits { ctrlOn with txf := [cr] } UnitState.reset).acks 0 1 = false := ⟨_, rfl, by decide⟩
theorem test_met_StatusFlags_bus :
    ∃ t, busTurn (.readAddr 0) (withUnits { ctrlOn with txf := [cr] } tgtOn) = .next t ∧ (t.unit 1).rdReq = true := ⟨_, rfl, rfl⟩
theorem test_met_StatusFlags_abort :
    ∃ t, busTurn (.write 0) (withUnits { ctrlOn with txf := [cw 0] } UnitState.reset) = .next t ∧ (t.unit 0).txAbrt = true := ⟨_, rfl, rfl⟩

/-- Reads. -/
theorem test_met_StorageRegisters : RegistersInv demoOn := test_demoOn_registers
theorem test_met_DataRead :
    ((withUnits ctrlOn { tgtOn with rxf := [0xA5, 1] }).unit 1).icEnable.getLsbD 0 = true ∧
      ((withUnits ctrlOn { tgtOn with rxf := [0xA5, 1] }).unit 1).rxf = 0xA5 :: [1] := by decide
theorem test_met_DataRead_faults :
    demo.fault = none ∧ (demo.unit 1).icEnable.getLsbD 0 = false ∧ demoOn.fault = none ∧
      (demoOn.unit 1).icEnable.getLsbD 0 = true ∧ (demoOn.unit 1).rxf = [] := by decide

/-- Writes, at the boundaries of the patterns. -/
theorem test_met_ConfigurationWrites :
    (demo.unit 0).icEnable.getLsbD 0 = false ∧ (demoOn.unit 0).icEnable.getLsbD 0 = true ∧ demo.fault = none ∧ demoOn.fault = none ∧
      (0x3FF : Word) >>> 10 = 0 ∧ (0xFFF : Word) >>> 12 = 0 ∧ (0x400 : Word) >>> 10 ≠ 0 ∧ (0x1000 : Word) >>> 12 ≠ 0 := by decide
theorem test_met_PinAndOutputWrites :
    (0x1FF : Word) >>> 9 = 0 ∧ (0x200 : Word) >>> 9 ≠ 0 ∧ (0x1F : Word) >>> 5 = 0 ∧ (0x20 : Word) >>> 5 ≠ 0 ∧
      (0x3FFFFFFF : Word) >>> 30 = 0 ∧ (0x40000000 : Word) >>> 30 ≠ 0 ∧ demo.fault = none := by decide
theorem test_met_CommandWords :
    (demoOn.unit 0).icEnable.getLsbD 0 = true ∧ (demoOn.unit 0).role = .controller ∧ (demoOn.unit 0).txAbrt = false ∧
      (demoOn.unit 0).txf = [] ∧ ∀ t, demoOn.phase ≠ .readPending 0 t := by decide
theorem test_met_CommandWords_target :
    let un := { tgtOn with txf := List.replicate 15 (td 0) }
    un.icEnable.getLsbD 0 = true ∧ un.role = .target ∧ un.txf.length < 16 := by decide
theorem test_met_CommandChecks :
    evalWord demo.vars (.lit 0x2A5) = .ok 0x2A5 ∧ (0x2A5 : Word) >>> 8 = 2 ∧ (0x3FF : Word) >>> 8 = 3 ∧ (0xFF : Word) >>> 8 = 0 ∧
      (0x1000 : Word) >>> 12 ≠ 0 ∧ (0xFFF : Word) >>> 12 = 0 ∧ ¬ ((demoOn.unit 0).role = .target ∧ (0x6A5 : Word) >>> 8 = 0) ∧
      ¬ ((demoOn.unit 0).role = .controller ∧ ((0x6A5 : Word) >>> 8 = 2 ∨ (0x6A5 : Word) >>> 8 = 3)) := ⟨rfl, by decide⟩
theorem test_met_CommandChecks_busy :
    ({ ctrlOn with txAbrt := true } : UnitState).txAbrt = true ∧ ({ ctrlOn with txf := [cw 0] } : UnitState).txf ≠ [] ∧
      ({ demoOn with phase := .readPending 0 1 } : State).phase = .readPending 0 1 ∧
      ({ tgtOn with txf := List.replicate 16 (td 0) } : UnitState).txf.length = 16 := by decide

/-- `demoPins` with a unit ready to be enabled: the lowest and the highest address that the enabling write admits. -/
def ready (a : Word) : State :=
  { demoPins with units := #v[{ UnitState.reset with icTar := a }, { UnitState.reset with icCon := 0x24, icSar := a }] }
theorem test_met_EnableLatches :
    ∀ a ∈ [0x08, 0x77], ((ready a).unit 0).icEnable.getLsbD 0 = false ∧ ((ready a).unit 0).icCon &&& 0x398 = 0 ∧
      (ready a).pinRole ((ready a).board.sdaPin 0) = .i2c 0 .sda ∧ (ready a).pinRole ((ready a).board.sclPin 0) = .i2c 0 .scl ∧
      ((ready a).unit 0).icCon.getLsbD 0 = true ∧ ((ready a).unit 0).icCon.getLsbD 6 = true ∧
      ((ready a).unit 0).icTar.getLsbD 11 = false ∧ ((ready a).unit 0).icTar &&& 0x380 = 0 ∧
      0x08 ≤ ((ready a).unit 0).icTar &&& 0x7F ∧ ((ready a).unit 0).icTar &&& 0x7F ≤ 0x77 := by
  intro a ha
  simp only [List.mem_cons, List.not_mem_nil, or_false] at ha
  rcases ha with rfl | rfl <;> decide
theorem test_met_EnableLatches_target :
    ∀ a ∈ [0x08, 0x77], ((ready a).unit 1).icEnable.getLsbD 0 = false ∧ ((ready a).unit 1).icCon &&& 0x398 = 0 ∧
      (ready a).pinRole ((ready a).board.sdaPin 1) = .i2c 1 .sda ∧ (ready a).pinRole ((ready a).board.sclPin 1) = .i2c 1 .scl ∧
      ((ready a).unit 1).icCon.getLsbD 0 = false ∧ ((ready a).unit 1).icCon.getLsbD 6 = false ∧
      ((ready a).unit 1).icSar &&& 0x380 = 0 ∧ 0x08 ≤ ((ready a).unit 1).icSar &&& 0x7F ∧
      ((ready a).unit 1).icSar &&& 0x7F ≤ 0x77 := by
  intro a ha
  simp only [List.mem_cons, List.not_mem_nil, or_false] at ha
  rcases ha with rfl | rfl <;> decide
/-- An illegal address just outside the range, and a legal configuration with the pins at reset. -/
theorem test_met_EnableChecks :
    demoPins.fault = none ∧ ¬ ((0x08 : Word) ≤ ((ready 0x07).unit 0).icTar &&& 0x7F) ∧
      ¬ (((ready 0x78).unit 0).icTar &&& 0x7F ≤ (0x77 : Word)) ∧ (demo.unit 0).icCon.getLsbD 0 = (demo.unit 0).icCon.getLsbD 6 ∧
      (demo.unit 0).icCon &&& 0x398 = 0 ∧ (demo.unit 0).icTar &&& 0x380 = 0 ∧ 0x08 ≤ (demo.unit 0).icTar &&& 0x7F ∧
      (demo.unit 0).icTar &&& 0x7F ≤ 0x77 ∧ (demo.unit 0).icTar.getLsbD 11 = false ∧
      demo.pinRole (demo.board.sdaPin 0) ≠ .i2c 0 .sda := by decide
theorem test_met_Disable :
    (demoOn.unit 0).icEnable.getLsbD 0 = true ∧ (demoOn.unit 0).txf = [] ∧ demoOn.fault = none ∧
      ({ ctrlOn with txf := [cw 0] } : UnitState).txf ≠ [] ∧
      (∀ c t, demoOn.phase = .readPending c t → (0 : UnitId) ≠ c ∧ (0 : UnitId) ≠ t) := by decide
theorem test_met_Disable_reading :
    ({ demoOn with phase := .readPending 0 1 } : State).phase = .readPending 0 1 ∧ ((1 : UnitId) = 0 ∨ (1 : UnitId) = 1) := by decide
theorem test_met_EnableWriteWithoutAChange :
    (1 : Word) >>> 1 = 0 ∧ (demoOn.unit 0).icEnable.getLsbD 0 = (1 : Word).getLsbD 0 ∧
      (demo.unit 0).icEnable.getLsbD 0 = (0 : Word).getLsbD 0 ∧ (2 : Word) >>> 1 ≠ 0 := by decide

/-- The access layer. -/
theorem test_met_ReadIsOneAccess :
    (Reg.icStatus 0).readable = true ∧ Reg.gpioOeClr.readable = false ∧ demo.fault = none ∧ (Reg.icDataCmd 1).readable = true ∧
      ((withUnits ctrlOn { tgtOn with rxf := [1] }).unit 1).icEnable.getLsbD 0 = true ∧
      ((withUnits ctrlOn { tgtOn with rxf := [1] }).unit 1).rxf ≠ [] := by decide
theorem test_met_WriteIsOneAccess :
    evalWord demo.vars (.lit 0x1FF) = .ok 0x1FF ∧ decode (.write (Reg.pad 4).addr 4 0x1FF) = .ok (.writePad 4 0x1FF) ∧
      decode (.write (Reg.pad 4).addr 4 0x200) = .error (.unadmitted (Reg.pad 4).addr) ∧ (Reg.icTar 0).writable = true ∧
      fieldsWf (.icTar 0) [(.tarAddress, .lit 0x2A)] = true ∧
      evalFields demo.vars [(.tarAddress, .lit 0x2A)] = .ok [(.tarAddress, 0x2A)] ∧ (0x1FF : Word) >>> 9 = 0 :=
  ⟨rfl, by decide, by decide, by decide, by decide, rfl, by decide⟩
/-- An access that completes, and one that faults. -/
theorem test_met_WriteIsOneAccess_variable :
    exec (.writePad 4 0x5A) demo = .next (demo.setPad 4 0x5A).finish ∧ (demo.setPad 4 0x5A).pc = demo.pc ∧
      (demo.setPad 4 0x5A).fault = demo.fault ∧
      decode (.write (Reg.icCon 0).addr 4 0x65) = .ok (.writeIcCon 0 0x65) ∧ demoOn.fault = none ∧
      exec (.writeIcCon 0 0x65) demoOn = .next (demoOn.setFault (.cfgWhileEnabled 0 (.icCon 0))) :=
  ⟨rfl, rfl, rfl, by decide, rfl, rfl⟩
theorem test_met_Modify :
    Reg.modifiable (.pad 4) = true ∧ fieldsWf (.pad 4) [(.iso, .lit 0)] = true ∧
      evalFields demo.vars [(.iso, .lit 0)] = .ok [(.iso, 0)] ∧ demo.pc.step = 0 ∧ (atStep demo 1).pc.step = 1 ∧
      Reg.modifiable (.icDataCmd 0) = false ∧ demo.fault = none ∧ demo.pad 4 >>> 9 = 0 :=
  ⟨by decide, by decide, rfl, rfl, rfl, by decide, rfl, by decide⟩
/-- The widest value of a field of two bits and of a field of ten. -/
theorem test_met_Fields : (3 : Word).toNat < 2 ^ fieldWidth .drive ∧ (0x3FF : Word).toNat < 2 ^ fieldWidth .tarAddress ∧ 31 < 32 := by decide
theorem test_met_Poll :
    Reg.pollable (.icStatus 0) = true ∧ evalWord demo.vars (.lit 2) = .ok 2 ∧ demo.fault = none ∧
      Reg.gpioOutSet.readable = false :=
  ⟨by decide, rfl, rfl, by decide⟩

/-- Each role of a pin, and the bus up by the pads of either unit, by the board, and down without wires or without pull-ups. -/
theorem test_met_PinRoles :
    demo.pinRole 0 = .isolated ∧ demoPins.pinRole 29 = .i2c 0 .scl ∧
      (((demoPins.setPad 25 0x12).setCtrl 25 5).setOe 0x02000000).pinRole 25 = .digitalOutput ∧
      ((demoPins.setPad 0 0x40).setCtrl 0 5).pinRole 0 = .digitalInput ∧ (demoPins.setCtrl 29 0x1F).pinRole 29 = .unconfigured ∧
      ((demoPins.setPad 0 0xC0).setCtrl 0 5).pinRole 0 = .digitalInput ∧
      (((demoPins.setPad 0 0xC0).setCtrl 0 5).setOe 1).pinRole 0 = .unconfigured := by decide
theorem test_met_BusUp :
    let padsOf (c t : Word) : State := { demoOn with pads := (((demoOn.pads.set 4 c).set 5 c).set 2 t).set 3 t }
    (padsOf 0x5A 0x52).busUp 0 = true ∧ (padsOf 0x52 0x5A).busUp 0 = true ∧ (padsOf 0x52 0x52).busUp 0 = false ∧
      (noPulls true).busUp 0 = true ∧ (noPulls false).busUp 0 = false ∧
      ({ demoOn with board := { Config.exampleBoard with wired := false } } : State).busUp 0 = false ∧
      (demoOn.setPad 2 0x52).busUp 1 = true ∧ (demoOn.setPad 5 0x15A).busUp 0 = false ∧
      (((demoOn.setPad 4 0x52).setPad 2 0x52).setPad 3 0x52).busUp 0 = false := by decide

/-- Pins: the first and the last. -/
theorem test_met_PinOperations :
    demo.pad 0 >>> 9 = 0 ∧ demo.pad 29 >>> 9 = 0 ∧ demo.pc.step = 0 ∧
      evalWord demo.vars (.lit 29) = .ok (BitVec.ofNat 32 (29 : Pin).val) ∧ evalBool demo.vars (.litBool true) = .ok true :=
  ⟨by decide, by decide, rfl, rfl, rfl⟩
theorem test_met_ArgumentChecks :
    demo.fault = none ∧ evalWord demo.vars (.lit 30) = .ok 30 ∧ evalBool demo.vars (.litBool true) = .ok true ∧
      30 ≤ (30 : Word).toNat ∧ 0x80 ≤ (0x80 : Word).toNat :=
  ⟨rfl, rfl, rfl, by decide, by decide⟩

/-- Configuring a unit that is disabled, and one that is enabled, at the ends of the address range. -/
theorem test_met_ConfigureAsController :
    ∀ s ∈ [demoPins, demoOn], evalWord s.vars (.lit 0x08) = .ok 0x08 ∧ (0x08 : Word) ≤ 0x08 ∧ (0x77 : Word) ≤ 0x77 ∧ s.pc.step = 0 ∧
      (s.unit s.board.ctrlUnit).icEnable >>> 1 = 0 ∧ (s.unit s.board.ctrlUnit).icCon >>> 10 = 0 ∧
      (s.unit s.board.ctrlUnit).icCon &&& 0x398 = 0 ∧ (s.unit s.board.ctrlUnit).txf = [] ∧ s.phase = .idle ∧
      s.pinsReady s.board.ctrlUnit = true := by
  intro s hs
  simp only [List.mem_cons, List.not_mem_nil, or_false] at hs
  rcases hs with rfl | rfl <;> exact ⟨rfl, by decide, by decide, by decide⟩
theorem test_met_ConfigureAsTarget :
    ∀ s ∈ [demoPins, demoOn], evalWord s.vars (.lit 0x77) = .ok 0x77 ∧ s.pc.step = 0 ∧
      (s.unit s.board.tgtUnit).icEnable >>> 1 = 0 ∧ (s.unit s.board.tgtUnit).icCon >>> 10 = 0 ∧
      (s.unit s.board.tgtUnit).icCon &&& 0x398 = 0 ∧ (s.unit s.board.tgtUnit).txf = [] ∧ s.phase = .idle ∧
      s.pinsReady s.board.tgtUnit = true := by
  intro s hs
  simp only [List.mem_cons, List.not_mem_nil, or_false] at hs
  rcases hs with rfl | rfl <;> exact ⟨rfl, by decide⟩

/-- Steps of the controller operations. -/
theorem test_met_WriteByte :
    evalWord demoOn.vars (.lit 0xFF) = .ok ((0xFF : Byte).zeroExtend 32) ∧ demoOn.board.ctrlUnit = 0 ∧
      (ctrlOn.txf.length < 16 ∧ 16 ≤ (List.replicate 16 (cw 0)).length) ∧
      (ctrlOn.icEnable.getLsbD 0 = true ∧ ctrlOn.role = .controller ∧ ctrlOn.txAbrt = false ∧ ctrlOn.txf = [] ∧ demoOn.phase = .idle) ∧
      (List.range 5).map (fun k => (atStep demoOn k).pc.step) = [0, 1, 2, 3, 4] := ⟨by decide, by decide, by decide, by decide, by decide⟩
theorem test_met_WriteByte_fault :
    demo.fault = none ∧ exec (.writeIcDataCmdCw 0 0x11) demo = .next (demo.setFault (.unitDisabled 0)) := ⟨rfl, rfl⟩
theorem test_met_Request_fault : exec (.writeIcDataCmdCr 0 0) demo = .next (demo.setFault (.unitDisabled 0)) := rfl
theorem test_met_ReceiveRequested :
    demoOn.requested = false ∧ ({ demoOn with requested := true } : State).requested = true ∧
      ({ ctrlOn with rxf := [0x5A] } : UnitState).rxf = 0x5A :: [] ∧ ctrlOn.icEnable.getLsbD 0 = true ∧ ctrlOn.rxf = [] ∧
      UnitState.reset.icEnable.getLsbD 0 = false := by decide

/-- Steps of the target operations. -/
theorem test_met_Receive :
    tgtOn.rxf = [] ∧ ({ tgtOn with rxf := [0xFF] } : UnitState).rxf = 0xFF :: [] ∧ tgtOn.icEnable.getLsbD 0 = true ∧
      demoOn.board.tgtUnit = 1 := by decide
theorem test_met_Receive_legal :
    ProtocolInv (withUnits ctrlOn { tgtOn with rxf := [0xFF] }) ∧ (withUnits ctrlOn { tgtOn with rxf := [0xFF] }).fault = none ∧
      ((withUnits ctrlOn { tgtOn with rxf := [0xFF] }).unit 1).rxf ≠ [] :=
  ⟨test_legal test_ctrlOn_legal ⟨by decide, by decide, by decide, by decide, by decide, by decide, by decide, by decide, by decide⟩ rfl,
    rfl, by decide⟩
theorem test_met_Serve :
    ({ tgtOn with rdReq := true } : UnitState).rdReq = true ∧ tgtOn.rdReq = false ∧ tgtOn.icEnable.getLsbD 0 = true ∧
      tgtOn.role = .target ∧ (List.replicate 15 (td 0)).length < 16 := by decide
theorem test_met_Serve_fault :
    exec (.writeIcDataCmdTd 1 0) demo = .next (demo.setFault (.unitDisabled 1)) := rfl
theorem test_met_Serve_overflow :
    let s := atStep (withUnits ctrlOn { tgtOn with txf := List.replicate 16 (td 0) }) 2
    exec .serveBytesFromMemory s = .next (s.setFault (.txOverflow s.board.tgtUnit)) ∧ s.fault = none := ⟨rfl, rfl⟩
theorem test_met_OperationsTouchOnlyTheirUnit :
    (∃ t, exec (.writeByte none (.lit 1)) (atStep demoOn 1) = .next t ∧ (t.unit 0).txf = [cw 1]) ∧
      ∃ t, exec .serveBytesFromMemory (atStep demoOn 2) = .next t ∧ (t.unit 1).txf = [td 0] := ⟨⟨_, rfl, rfl⟩, _, rfl, rfl⟩

/-- Joint steps: acknowledged with room for one byte, acknowledged and full, not acknowledged. -/
theorem test_met_BusWrite :
    let s := withUnits { ctrlOn with txf := [cw 0x5A] } { tgtOn with rxf := List.replicate 15 0 }
    (s.unit 0).icEnable.getLsbD 0 = true ∧ (s.unit 0).role = .controller ∧ (s.unit 0).txAbrt = false ∧
      (s.unit 0).txf = cw 0x5A :: [] ∧ s.phase = .idle ∧ (cw 0x5A).cmd = false ∧ s.busUp 0 = true ∧
      (s.unit 1).icEnable.getLsbD 0 = true ∧ (s.unit 1).role = .target ∧ s.pinsReady 1 = true ∧
      (s.unit 1).icSar &&& 0x7F = (s.unit 0).icTar &&& 0x7F ∧ (s.unit 1).rxf.length < 16 ∧
      (List.replicate 16 (0 : Byte)).length = 16 ∧ (0x2B : Word) &&& 0x7F ≠ (s.unit 0).icTar &&& 0x7F := by decide
theorem test_met_BusReadAddress :
    let s := withUnits { ctrlOn with txf := [cr] } tgtOn
    (s.unit 0).txf = cr :: [] ∧ s.phase = .idle ∧ cr.cmd = true ∧ s.busUp 0 = true ∧ (s.unit 1).icEnable.getLsbD 0 = true ∧
      (s.unit 1).role = .target ∧ s.pinsReady 1 = true ∧ (s.unit 1).icSar &&& 0x7F = (s.unit 0).icTar &&& 0x7F ∧
      (s.unit 1).txf = [] ∧ ({ tgtOn with txf := [td 0x11] } : UnitState).txf ≠ [] := by decide
theorem test_met_BusReadData :
    let s : State := { withUnits { ctrlOn with rxf := List.replicate 15 0 } { tgtOn with txf := [td 1] } with phase := .readPending 0 1 }
    s.phase = .readPending 0 (otherUnit 0) ∧ s.busUp 0 = true ∧ s.pinsReady (otherUnit 0) = true ∧
      (s.unit (otherUnit 0)).txf = td 1 :: [] ∧ (s.unit 0).rxf.length < 16 ∧ (List.replicate 16 (0 : Byte)).length = 16 ∧
      tgtOn.txf = [] ∧ s.fault = none := by decide
theorem test_met_LostBus :
    ((noPulls false).unit 0).icEnable.getLsbD 0 = true ∧ ((noPulls false).unit 0).role = .controller ∧
      ((noPulls false).unit 0).txAbrt = false ∧ ((noPulls false).unit 0).txf ≠ [] ∧ (noPulls false).phase = .idle ∧
      (noPulls false).busUp 0 = false := by decide
theorem test_met_LostBus_reading :
    let s : State := { noPulls false with phase := .readPending 0 1 }
    s.phase = .readPending 0 (otherUnit 0) ∧ s.busUp 0 = false := by decide
theorem test_met_AbortedController :
    let s := withUnits { ctrlOn with txAbrt := true } tgtOn
    (s.unit 0).txAbrt = true ∧ s.phase = .idle := by decide

/-- The caller, and whole transfers. -/
theorem test_met_CallerStatements :
    (running (.assign 1 (.lit 5)) demo).currentStmt = some (.assign 1 (.lit 5)) ∧
      (running (.ifGoto (.litBool true) 2) demo).currentStmt = some (.ifGoto (.litBool true) 2) ∧
      labelIndex 2 [⟨none, .goto 2⟩, ⟨some 2, .halt⟩] = some 1 ∧ lookupVar 1 demo.vars = none ∧ demo.fault = none ∧
      demo.currentStmt = none ∧ (running .halt demo).currentStmt = some .halt := by decide
theorem test_met_CallerStatements_values :
    evalExpr demo.vars (.lit 5) = .ok (.word 5) ∧ evalBool demo.vars (.litBool true) = .ok true ∧
      evalBool demo.vars (.litBool false) = .ok false := ⟨rfl, rfl, rfl⟩
/-- An unassigned variable in each place, and values for the operators. -/
theorem test_met_CallerStatements_unwritten :
    evalExpr demo.vars (.not (.var 1)) = .error .unwritten ∧ evalWord demo.vars (.bitAnd (.lit 1) (.var 1)) = .error .unwritten ∧
      evalBool demo.vars (.var 1) = .error .unwritten ∧ evalWord demo.vars (.lit 29) = .ok 29 ∧
      fieldsWf (.pad 0) [(.ie, .lit 1), (.pue, .var 1)] = true ∧
      evalFields demo.vars [(.ie, .lit 1), (.pue, .var 1)] = .error .unwritten ∧ (Reg.pad 0).writable = true ∧
      Reg.modifiable (.pad 0) = true ∧ Reg.pollable (.icStatus 0) = true ∧
      (running (.assign 2 (.not (.var 1))) demo).currentStmt = some (.assign 2 (.not (.var 1))) ∧
      (running (.ifGoto (.not (.var 1)) 7) demo).currentStmt = some (.ifGoto (.not (.var 1)) 7) := by decide
theorem test_unwritten_operands :
    faults (cpuStep (running (.ifGoto (.eq (.lit 0) (.var 1)) 7) demo)) .unwrittenVar &&
    faults (exec (.waitForCondition (.icStatus 0) (.lit 0) (.var 1)) demo) .unwrittenVar &&
    faults (exec (.modify (.pad 0) [(.pue, .var 1)]) demo) .unwrittenVar = true := by decide
/-- The widest values of each kind, and the widest and the narrowest slice. -/
theorem test_met_CallerStatements_operators :
    evalExpr [(1, .word 0xFFFFFFFF)] (.var 1) = .ok (.word 0xFFFFFFFF) ∧ evalExpr [] (.lit 0) = .ok (.word 0) ∧
      evalExpr [] (.litBool true) = .ok (.bool true) ∧ evalExpr [(1, .word 1)] (.slice (.var 1) 31 0) = .ok (.word 1) ∧
      evalExpr [(1, .word 0x80000000)] (.slice (.var 1) 31 31) = .ok (.word 1) ∧
      evalExpr [] (.addMod256 (.lit 0xFF) (.lit 0xFF)) = .ok (.word 0xFE) := by decide
/-- A well-formed program with a condition and an operand of the wrong kind, and values of one kind and of two. -/
theorem test_met_CallerStatements_kinds :
    programWf [⟨some 7, .ifGoto (.not (.lit 1)) 7⟩, ⟨none, .instr (.writeByte none .none)⟩] = true ∧
      (Val.opt none).sameKind (.opt (some 1)) = true ∧ (Val.bool true).sameKind (.bool false) = true ∧
      (Val.word 0).sameKind (.word 0xFFFFFFFF) = true ∧ (Val.word 1).sameKind (.opt (some 1)) = false := by decide
theorem test_met_EndOfARun : Ended demoOn := ⟨by decide, by decide, by decide, by decide⟩
theorem test_met_Transfers :
    demoOn.pc.step = 0 ∧ evalWord demoOn.vars (.lit 0xFF) = .ok ((0xFF : Byte).zeroExtend 32) ∧ demoOn.phase = .idle ∧
      demoOn.busUp demoOn.board.ctrlUnit = true ∧ (demoOn.unit demoOn.board.ctrlUnit).icEnable.getLsbD 0 = true ∧
      (demoOn.unit demoOn.board.ctrlUnit).role = .controller ∧ (demoOn.unit demoOn.board.ctrlUnit).txAbrt = false ∧
      (demoOn.unit demoOn.board.ctrlUnit).txf = [] ∧ (demoOn.unit demoOn.board.ctrlUnit).rxf = [] ∧
      demoOn.acks demoOn.board.ctrlUnit demoOn.board.tgtUnit = true ∧ (demoOn.unit demoOn.board.tgtUnit).rxf = [] ∧
      (demoOn.unit demoOn.board.tgtUnit).txf = [] :=
  ⟨rfl, by decide, by decide⟩
theorem test_met_Wait_receive :
    let s := running (.instr .receiveBytesToMemory) (withUnits ctrlOn UnitState.reset)
    ProtocolInv s ∧ s.fault = none ∧ fetchInstr s = some .receiveBytesToMemory ∧ s.pc.step = 0 ∧
      (s.unit s.board.tgtUnit).enabled = false :=
  ⟨test_legal test_ctrlOn_legal test_resetUnit_legal rfl, rfl, rfl, rfl, rfl⟩
theorem test_met_Wait_requested :
    let s := running (.instr (.receiveRequestedBytesFromMemory none)) (atStep demoOn 1)
    ProtocolInv s ∧ s.fault = none ∧ fetchInstr s = some (.receiveRequestedBytesFromMemory none) ∧ s.pc.step = 1 ∧ s.phase = .idle ∧
      (s.unit s.board.ctrlUnit).role = .controller ∧ (s.unit s.board.tgtUnit).role = .target ∧
      (s.unit s.board.ctrlUnit).txf = [] ∧ (s.unit s.board.ctrlUnit).rxf = [] :=
  ⟨test_legal test_ctrlOn_legal test_tgtOn_legal rfl, rfl, rfl, rfl, rfl, rfl, rfl, rfl, rfl⟩

end Tests
end Machine
end Sys2Proof
end

section
/-! Proofs of the register-access family (40_register_access.md R150, R152, R153, R161, R163, R165). First what one read, one
write and one field replacement do, then the obligations. -/

namespace Sys2Proof
namespace Machine

/-! ## One read, one write -/

/-- A statement that is one fault-free read returns the value to its variable (40_register_access.md R150). -/
theorem readStmt_of_ok {r : Reg} {s t : State} {v : Word} (h : readReg r s = .ok (v, t)) (x : Option Var) :
    readStmt x r s = .next (t.ret x (.word v)) := onRead_ok h _

/-- A statement that writes a value of the register's pattern has the register's effect. -/
theorem writeStmt_of_admitted {r : Reg} {v : Word} {s t : State} (hw : r.writable = true) (hv : r.admitsValue v = true)
    (h : storeReg r v s = .ok t) : writeStmt r v s = .next t.finish :=
  onWrite_ok ((writeReg_of_admitted hw hv s).trans h) _

/-- A statement that writes a value outside the register's pattern is `F_UNADMITTED` (20_memory.md R86). -/
theorem writeStmt_of_not_admitted {r : Reg} {v : Word} {s : State} (hs : s.fault = .none) (hv : ¬ r.admitsValue v = true) :
    writeStmt r v s = .next (s.setFault (.unadmitted r.addr)) := by
  have hw : writeReg r v s = .error (.unadmitted r.addr) := by simp [writeReg, hv]
  rw [writeStmt, onWrite_error hw, raise_of_none hs]

/-- A read of IC_DATA_CMD that finds a byte takes the oldest one (40_register_access.md R157). -/
theorem popData_of_cons {u : UnitId} {s : State} {b : Byte} {rest : List Byte} (hen : (s.unit u).enabled = true)
    (hrx : (s.unit u).rxf = b :: rest) :
    popData u s = .ok (dataCmdWord b (s.draw 0), (s.setUnit u (s.unit u).popRx).drew 1) := by
  simp [popData, hen, hrx]

/-- A readable register can be read, IC_DATA_CMD if its unit is enabled and has a received byte. -/
theorem readReg_completes {r : Reg} {s : State} (hr : r.readable = true)
    (hd : ∀ u, r = .icDataCmd u → (s.unit u).enabled = true ∧ (s.unit u).rxf ≠ []) :
    ∃ v m, readReg r s = .ok (v, m) := by
  cases r with
  | icDataCmd u =>
    obtain ⟨hen, hrx⟩ := hd u rfl
    obtain ⟨b, rest, hb⟩ := List.exists_cons_of_ne_nil hrx
    exact ⟨_, _, popData_of_cons hen hb⟩
  | gpioOutSet | gpioOutClr | gpioOeSet | gpioOeClr => simp [Reg.readable] at hr
  | icCon u | icTar u | icSar u | icRawIntrStat u | icClrRdReq u | icClrTxAbrt u | icEnable u | icStatus u
  | icTxAbrtSource u | icEnableStatus u => exact ⟨_, _, rfl⟩
  | pad n | ctrl n => exact ⟨_, _, rfl⟩
  | gpioOut | gpioOe => exact ⟨_, _, rfl⟩

/-- A register that no row admits for R (30_encoding.md R112). -/
theorem readReg_of_not_readable {r : Reg} (hr : r.readable = false) (s : State) :
    readReg r s = .error (.unadmitted r.addr) := by
  cases r with
  | gpioOutSet | gpioOutClr | gpioOeSet | gpioOeClr => rfl
  | _ => simp [Reg.readable] at hr

/-! ## Storage registers (40_register_access.md R153) -/

/-- The word that a storage register holds; 0 for the registers that are none. -/
def State.stored (s : State) : Reg → Word
  | .icCon u => (s.unit u).icCon
  | .icTar u => (s.unit u).icTar
  | .icSar u => (s.unit u).icSar
  | .icEnable u => (s.unit u).icEnable
  | .pad n => s.pad n
  | .ctrl n => s.ctrl n
  | .gpioOut => s.sioOut
  | .gpioOe => s.sioOe
  | _ => 0

/-- The registers that `modify` takes are the storage registers: a read shows their defined bits and has no side effect. -/
theorem readReg_of_modifiable {r : Reg} (hr : Reg.modifiable r = true) (s : State) :
    readReg r s = .ok (s.stored r &&& r.readMask, s) := by
  cases r with
  | icCon u | icTar u | icSar u | icEnable u => rfl
  | pad n | ctrl n => rfl
  | gpioOut | gpioOe => rfl
  | _ => simp [Reg.modifiable] at hr

/-- The reserved bits of a pad read 0, and are 0 as stored. -/
theorem pad_and_readMask {s : State} {n : Pin} (h : s.pad n >>> 9 = 0) : s.pad n &&& (Reg.pad n).readMask = s.pad n :=
  and_of_shiftRight_eq_zero h (by rw [readMask_pad]; decide)

/-- Under the register invariant a storage register has no bit that a read would hide. -/
theorem RegistersInv.stored_and_readMask {s : State} (h : RegistersInv s) {r : Reg} (hr : Reg.modifiable r = true) :
    s.stored r &&& r.readMask = s.stored r := by
  cases r with
  | icCon u => exact and_of_shiftRight_eq_zero (h.con u) (by rw [readMask_icCon]; decide)
  | icTar u => exact and_of_shiftRight_eq_zero (h.tar u) (by rw [readMask_icTar]; decide)
  | icSar u => exact and_of_shiftRight_eq_zero (h.sar u) (by rw [readMask_icSar]; decide)
  | icEnable u => exact and_of_shiftRight_eq_zero (h.enable u) (by rw [readMask_icEnable]; decide)
  | pad n => exact pad_and_readMask (h.pad n)
  | ctrl n => exact and_of_shiftRight_eq_zero (h.ctrl n) (by rw [readMask_ctrl]; decide)
  | gpioOut => exact and_of_shiftRight_eq_zero h.out (by rw [readMask_gpioOut]; decide)
  | gpioOe => exact and_of_shiftRight_eq_zero h.oe (by rw [readMask_gpioOe]; decide)
  | _ => simp [Reg.modifiable] at hr

theorem RegistersInv.readStmt_stored {s : State} (h : RegistersInv s) {r : Reg} (hr : Reg.modifiable r = true)
    (x : Option Var) : readStmt x r s = .next (s.ret x (.word (s.stored r))) := by
  have hread := readReg_of_modifiable hr s
  rw [h.stored_and_readMask hr] at hread
  exact readStmt_of_ok hread x

/-- Settles O19: the eight registers are the storage registers, and the invariant leaves no bit for the read to hide. -/
theorem storageRegistersReadAsStored : Obligations.StorageRegistersReadAsStored := by
  intro s x h
  refine ⟨fun u => ⟨?_, ?_, ?_, ?_⟩, fun n => ⟨?_, ?_⟩, ?_, ?_⟩
  · exact h.readStmt_stored (r := .icCon u) rfl x
  · exact h.readStmt_stored (r := .icTar u) rfl x
  · exact h.readStmt_stored (r := .icSar u) rfl x
  · exact h.readStmt_stored (r := .icEnable u) rfl x
  · exact h.readStmt_stored (r := .pad n) rfl x
  · exact h.readStmt_stored (r := .ctrl n) rfl x
  · exact h.readStmt_stored (r := .gpioOut) rfl x
  · exact h.readStmt_stored (r := .gpioOe) rfl x

/-! ## Status registers (40_register_access.md R161, R163) -/

theorem getElem_bit (b : Bool) {i : Nat} (h : i < 32) : (bit b)[i] = (b && decide (i = 0)) := by
  cases b <;> simp [bit]

/-- Bits 31:7 of IC_STATUS are reserved. -/
theorem statusWord_high (un : UnitState) (d : Word) : statusWord un d >>> 7 = 0 := by
  rw [← and_not_lowMask (by decide), statusWord_eq, BitVec.or_assoc, BitVec.or_assoc, BitVec.or_assoc,
    and_drop_draw (by decide)]
  cases un.tfnf <;> cases un.tfe <;> cases un.rfne <;> cases un.rff <;> decide

/-- Bits 31:23 of IC_TX_ABRT_SOURCE are the draw's. -/
theorem txAbrtSourceWord_high (un : UnitState) (d : Word) : txAbrtSourceWord un d >>> 23 = d >>> 23 := by
  have hreason : (un.abrtSrc &&& (0x007FFFFF : Word)) >>> 23 = 0 := by
    rw [BitVec.ushiftRight_and_distrib]
    exact BitVec.and_zero
  have hdraw : (d &&& (0xFF800000 : Word)) >>> 23 = d >>> 23 := by
    rw [BitVec.ushiftRight_and_distrib]
    refine and_of_shiftRight_eq_zero (k := 9) ?_ (by decide)
    rw [← BitVec.shiftRight_add]
    exact BitVec.ushiftRight_eq_zero (by decide)
  rw [txAbrtSourceWord_eq, BitVec.ushiftRight_or_distrib, hreason, hdraw]
  exact BitVec.zero_or

/-- Settles O20: the value read is `statusWord`, an `or` of one-bit flags each in its place (`statusWord_eq`, `getElem_bit`) and the
drawn bits, so each of its bits below 7 is one of these. -/
theorem statusReadShowsTheFifos : Obligations.StatusReadShowsTheFifos := by
  intro s x u
  refine ⟨_, readStmt_of_ok (r := .icStatus u) rfl x, ?_, ?_, ?_, ?_, ?_, ?_, ?_, statusWord_high _ _⟩
  all_goals simp [statusWord_eq, getElem_bit, UnitState.tfnf, UnitState.tfe, UnitState.rfne, UnitState.rff]

/-- Settles O22: the value read is `txAbrtSourceWord`, and the read only uses a draw. -/
theorem abortSourceReadShowsTheReason : Obligations.AbortSourceReadShowsTheReason := fun _ x u =>
  ⟨_, readStmt_of_ok (r := .icTxAbrtSource u) rfl x, txAbrtSourceWord_tracked _ _, txAbrtSourceWord_high _ _⟩

/-! ## Set and clear registers (40_register_access.md R165) -/

/-- Settles O27: the pattern of each of the four registers is "bits 31:30 = 0", and its effect is on one output word. -/
theorem setAndClearChangeTheNamedPins : Obligations.SetAndClearChangeTheNamedPins := by
  intro s v
  constructor
  · intro hv
    exact ⟨writeStmt_of_admitted rfl ((admitsValue_gpioOutSet v).2 hv) rfl,
      writeStmt_of_admitted rfl ((admitsValue_gpioOutClr v).2 hv) rfl,
      writeStmt_of_admitted rfl ((admitsValue_gpioOeSet v).2 hv) rfl,
      writeStmt_of_admitted rfl ((admitsValue_gpioOeClr v).2 hv) rfl⟩
  · intro hs hv
    exact ⟨writeStmt_of_not_admitted hs (mt (admitsValue_gpioOutSet v).1 hv),
      writeStmt_of_not_admitted hs (mt (admitsValue_gpioOutClr v).1 hv),
      writeStmt_of_not_admitted hs (mt (admitsValue_gpioOeSet v).1 hv),
      writeStmt_of_not_admitted hs (mt (admitsValue_gpioOeClr v).1 hv)⟩

/-! ## `read` (40_register_access.md R150) -/

/-- The decoder's answer to a read at a register's address is the row of that register, if it has one for R. -/
theorem decode_read_addr (x : Option Var) (r : Reg) :
    decode (.read x r.addr 4) = (readInstr x r).elim (.error (.unadmitted r.addr)) .ok := by
  cases h : readInstr x r <;> simp [decode, wordAligned_addr, regAt_addr, h]

theorem readInstr_of_readable {r : Reg} (hr : r.readable = true) (x : Option Var) : ∃ i, readInstr x r = some i := by
  cases r with
  | gpioOutSet | gpioOutClr | gpioOeSet | gpioOeClr => simp [Reg.readable] at hr
  | _ => exact ⟨_, rfl⟩

theorem readInstr_of_not_readable {r : Reg} (hr : r.readable = false) (x : Option Var) : readInstr x r = none := by
  cases r with
  | gpioOutSet | gpioOutClr | gpioOeSet | gpioOeClr => rfl
  | _ => simp [Reg.readable] at hr

/-- The row that reads a register is one read of that register. -/
theorem exec_readInstr {x : Option Var} {r : Reg} {i : Instr} (h : readInstr x r = some i) (s : State) :
    exec i s = readStmt x r s := by
  cases r <;> cases h <;> rfl

/-- Settles O34: `read` and the decoded row are the same `readStmt`. -/
theorem readIsOneAccess : Obligations.ReadIsOneAccess := by
  intro s x r
  refine ⟨fun hr => ?_, fun hr hs => ⟨?_, ?_⟩, fun hr hd => ?_⟩
  · obtain ⟨i, hi⟩ := readInstr_of_readable hr x
    exact ⟨i, by rw [decode_read_addr, hi]; rfl, (exec_readInstr hi s).symm⟩
  · rw [decode_read_addr, readInstr_of_not_readable hr]; rfl
  · rw [exec_read, readStmt, onRead_error (readReg_of_not_readable hr s), raise_of_none hs]
  · obtain ⟨v, m, hread⟩ := readReg_completes hr hd
    exact ⟨v, m, readStmt_of_ok hread x, readReg_sameCpu hread⟩

/-! ## Replaced fields (40_register_access.md R152) -/

theorem fieldBits_low_le_high (f : Field) : (fieldBits f).2 ≤ (fieldBits f).1 := by
  cases f <;> simp

/-- A field's new value has no bit outside the field, also where it is the free value of an operand too wide (log 18). -/
theorem getLsbD_fieldValue_of_ge {n i : Nat} (h : n ≤ i) (e : Word) : (fieldValue n e).getLsbD i = false := by
  by_cases hi : 32 ≤ i
  · exact BitVec.getLsbD_of_ge _ _ hi
  unfold fieldValue
  split
  · rename_i he
    exact Nat.testBit_lt_two_pow (Nat.lt_of_lt_of_le he (Nat.pow_le_pow_right (by decide) h))
  · rw [BitVec.getLsbD_and, getLsbD_lowMask (by omega)]
    simp [h]

/-- The bits above a field are kept. -/
theorem getLsbD_insertField_of_gt {f : Field} {i : Nat} (h : (fieldBits f).1 < i) (e w : Word) :
    (insertField f e w).getLsbD i = w.getLsbD i := by
  by_cases hi : 32 ≤ i
  · rw [BitVec.getLsbD_of_ge _ _ hi, BitVec.getLsbD_of_ge _ _ hi]
  have hlow := fieldBits_low_le_high f
  have hwidth : fieldWidth f ≤ i - (fieldBits f).2 := by unfold fieldWidth; omega
  have hvalue := getLsbD_fieldValue_of_ge hwidth e
  have hmask : (fieldMask f).getLsbD i = false := by
    rw [fieldMask, BitVec.getLsbD_shiftLeft, getLsbD_lowMask (by omega), decide_eq_false (Nat.not_lt.2 hwidth),
      Bool.and_false]
  rw [insertField, BitVec.getLsbD_or, BitVec.getLsbD_and, BitVec.getLsbD_not, BitVec.getLsbD_shiftLeft, hmask, hvalue]
  simp [-fieldBits_eq, show i < 32 by omega]

/-- A word without bits from `k` up keeps none when fields below `k` are replaced. -/
theorem insertField_shiftRight {f : Field} {k : Nat} (hf : (fieldBits f).1 < k) (e : Word) {w : Word} (hw : w >>> k = 0) :
    insertField f e w >>> k = 0 := by
  rw [← hw]
  apply BitVec.eq_of_getLsbD_eq
  intro i _
  rw [BitVec.getLsbD_ushiftRight, BitVec.getLsbD_ushiftRight, getLsbD_insertField_of_gt (by omega)]

theorem insertFields_shiftRight {k : Nat} {ws : List (Field × Word)} (hf : ∀ f ∈ ws.map Prod.fst, (fieldBits f).1 < k)
    {w : Word} (hw : w >>> k = 0) : insertFields ws w >>> k = 0 := by
  induction ws generalizing w with
  | nil => exact hw
  | cons p ws ih =>
    obtain ⟨hp, hws⟩ := List.forall_mem_cons.1 hf
    exact ih hws (insertField_shiftRight hp p.2 hw)

/-- The evaluated field list names the fields of the text. -/
theorem evalFields_names {vars : List (Var × Val)} {fs : List (Field × Expr)} {ws : List (Field × Word)}
    (h : evalFields vars fs = .ok ws) : ws.map Prod.fst = fs.map Prod.fst := by
  induction fs generalizing ws with
  | nil => cases h; rfl
  | cons p fs ih =>
    simp only [evalFields] at h
    split at h
    · cases h
    split at h
    · cases h
    · rename_i hrest
      cases h
      simp [ih hrest]

/-- Every field of a pad lies in bits 8:0 (10_state.md R50). -/
theorem fieldBits_lt_of_pad {n : Pin} {f : Field} (h : (Reg.pad n).hasField f = true) : (fieldBits f).1 < 9 := by
  simp only [Reg.hasField, List.contains_eq_mem, decide_eq_true_eq, List.mem_cons, List.not_mem_nil, or_false] at h
  rcases h with rfl | rfl | rfl | rfl | rfl | rfl | rfl | rfl <;> decide

/-- Fields of a pad written over what a pad may hold are again what a pad may hold. -/
theorem admitsValue_pad_insertFields {n : Pin} {vars : List (Var × Val)} {fs : List (Field × Expr)}
    {ws : List (Field × Word)} {w : Word} (hfs : fieldsWf (.pad n) fs = true) (hws : evalFields vars fs = .ok ws)
    (hw : w >>> 9 = 0) : (Reg.pad n).admitsValue (insertFields ws w) = true := by
  rw [admitsValue_pad]
  refine insertFields_shiftRight (fun f hf => ?_) hw
  rw [evalFields_names hws] at hf
  obtain ⟨p, hp, rfl⟩ := List.mem_map.1 hf
  simp only [fieldsWf, Bool.and_eq_true, List.all_eq_true] at hfs
  exact fieldBits_lt_of_pad (hfs.1 p hp)

/-! ## `modify` (40_register_access.md R152) -/

theorem exec_modify (r : Reg) (fs : List (Field × Expr)) (x : Option Var) (s : State) :
    exec (.modify r fs x) s = execModify r fs s x := rfl

/-- `modify` of a register outside the rule's list. -/
theorem exec_modify_of_not_modifiable {r : Reg} {s : State} (hr : Reg.modifiable r = false) (hs : s.fault = .none)
    (fs : List (Field × Expr)) (x : Option Var) : exec (.modify r fs x) s = .next (s.setFault (.unadmitted r.addr)) := by
  rw [exec_modify, execModify, if_pos hr, raise_of_none hs]

section Steps

variable {r : Reg} {fs : List (Field × Expr)} {s : State} {ws : List (Field × Word)}
variable (hr : Reg.modifiable r = true) (hfs : fieldsWf r fs = true) (hws : evalFields s.vars fs = .ok ws)
include hr hfs hws

/-- Step 1 keeps the defined bits of the stored word. -/
theorem exec_modify_read (hstep : s.pc.step = 0) (x : Option Var) :
    exec (.modify r fs x) s = .next (s.setLatch (s.stored r &&& r.readMask)).advance := by
  simp only [exec_modify, execModify, hr, hfs, hws, hstep, withOperand_ok, Bool.true_eq_false, if_false]
  exact onRead_ok (readReg_of_modifiable hr s) _

/-- Step 2 writes the kept value with the named fields replaced. -/
theorem exec_modify_write (hstep : s.pc.step = 1) (x : Option Var) :
    exec (.modify r fs x) s = onWrite r (insertFields ws s.latch) s fun t => t.retNone x := by
  simp only [exec_modify, execModify, hr, hfs, hws, hstep, withOperand_ok, Bool.true_eq_false, if_false]
  rfl

end Steps

/-- A whole `modify` of a pad whose reserved bits are 0. -/
theorem execTimes_modify_pad {s : State} {n : Pin} {fs : List (Field × Expr)} {ws : List (Field × Word)}
    (hpad : s.pad n >>> 9 = 0) (hstep : s.pc.step = 0) (hfs : fieldsWf (.pad n) fs = true)
    (hws : evalFields s.vars fs = .ok ws) (x : Option Var) :
    execTimes 2 (.modify (.pad n) fs x) s =
      .next (((s.setPad n (insertFields ws (s.pad n))).setLatch (s.pad n)).retNone x) := by
  have hread : exec (.modify (.pad n) fs x) s = .next (s.setLatch (s.pad n)).advance := by
    rw [exec_modify_read rfl hfs hws hstep, State.stored, pad_and_readMask hpad]
  have hwrite : exec (.modify (.pad n) fs x) (s.setLatch (s.pad n)).advance =
      .next (((s.setLatch (s.pad n)).advance.setPad n (insertFields ws (s.pad n))).retNone x) := by
    have hstep' : (s.setLatch (s.pad n)).advance.pc.step = 1 := by simp [hstep]
    rw [exec_modify_write (s := (s.setLatch (s.pad n)).advance) rfl hfs hws hstep']
    exact onWrite_ok (writeReg_of_admitted rfl (admitsValue_pad_insertFields hfs hws hpad) _) _
  simp only [execTimes, hread, hwrite]
  cases x <;> rfl

/-- Settles O36: one step reads, the next writes over what was read; for a pad the written value meets the pad's pattern. -/
theorem modifyReadsThenWrites : Obligations.ModifyReadsThenWrites := by
  refine ⟨fun s x r fs => ⟨fun hr hfs ws hws => ⟨fun hstep => ?_, fun hstep => ?_⟩, fun hr hs => ?_⟩,
    fun s x n fs ws hpad hstep hfs hws => execTimes_modify_pad hpad hstep hfs hws x⟩
  · exact ⟨_, readReg_of_modifiable hr s, exec_modify_read hr hfs hws hstep x⟩
  · exact exec_modify_write hr hfs hws hstep x
  · exact exec_modify_of_not_modifiable hr hs fs x

end Machine
end Sys2Proof
end

section
/-! Proofs of the busy-wait family (42_busy_wait.md R200, R201). What a wait on a register of its list and on any other does,
then the obligation. -/

namespace Sys2Proof
namespace Machine

/-! ## States that differ in the model's own fields -/

theorem SameMachine.refl (s : State) : SameMachine s s := rfl

theorem sameMachine_drew (s : State) (n : Nat) : SameMachine s (s.drew n) := rfl

/-! ## The registers of a busy-wait -/

/-- A read of a pollable register never faults, and only a status register's read uses a draw. -/
theorem readReg_of_pollable {r : Reg} (hr : Reg.pollable r = true) (s : State) :
    ∃ v m, readReg r s = .ok (v, m) ∧ SameMachine s m := by
  cases r with
  | icStatus u | icRawIntrStat u | icEnableStatus u | icTxAbrtSource u => exact ⟨_, _, rfl, sameMachine_drew s 1⟩
  | _ =>
    simp only [Reg.pollable] at hr
    exact ⟨_, _, readReg_of_modifiable hr s, .refl s⟩

/-- The rule's list leaves out the three reads with a side effect and the registers that no row admits for R. -/
theorem not_pollable {r : Reg}
    (hr : (∃ u, r = .icDataCmd u ∨ r = .icClrRdReq u ∨ r = .icClrTxAbrt u) ∨ r.readable = false) :
    Reg.pollable r = false := by
  obtain ⟨u, rfl | rfl | rfl⟩ | hr := hr
  · rfl
  · rfl
  · rfl
  · cases r with
    | gpioOutSet | gpioOutClr | gpioOeSet | gpioOeClr => rfl
    | _ => simp [Reg.readable] at hr

/-! ## One poll -/

section Poll

variable {r : Reg} {s t : State} {v mask value : Word} (hread : readReg r s = .ok (v, t))
include hread

/-- The condition holds: the wait goes on by `k`. -/
theorem poll_of_eq (hv : v &&& mask = value) (k : State → State) : poll r mask value s k = .next (k t) := by
  rw [poll, onRead_ok hread, if_pos hv]

/-- The condition does not hold: the step is the read alone. -/
theorem poll_of_ne (hv : v &&& mask ≠ value) (k : State → State) : poll r mask value s k = .next t := by
  rw [poll, onRead_ok hread, if_neg hv]

end Poll

/-! ## `waitForCondition` -/

theorem exec_waitForCondition (r : Reg) (em ev : Expr) (x : Option Var) (s : State) :
    exec (.waitForCondition r em ev x) s = execWaitForCondition r em ev s x := rfl

/-- A wait on a register outside the rule's list; the operands do not matter (log 36). -/
theorem exec_waitForCondition_of_not_pollable {r : Reg} {s : State} (hr : Reg.pollable r = false) (hs : s.fault = .none)
    (em ev : Expr) (x : Option Var) :
    exec (.waitForCondition r em ev x) s = .next (s.setFault (.unadmitted r.addr)) := by
  rw [exec_waitForCondition, execWaitForCondition, if_pos hr, raise_of_none hs]

/-- A wait on a pollable register is one poll with the values of its operands. -/
theorem exec_waitForCondition_of_pollable {r : Reg} {s : State} {em ev : Expr} {mask value : Word}
    (hr : Reg.pollable r = true) (hm : evalWord s.vars em = .ok mask) (hv : evalWord s.vars ev = .ok value)
    (x : Option Var) : exec (.waitForCondition r em ev x) s = poll r mask value s fun t => t.retNone x := by
  rw [exec_waitForCondition, execWaitForCondition, if_neg (by simp [hr]), hm, hv, withOperand_ok, withOperand_ok]

/-- Settles O38: a pollable register's read leaves the machine as it was, so a poll can change it only by ending the wait; every
register of the fault's clause is outside the rule's list, which is checked first. -/
theorem pollChangesNothingUntilTrue : Obligations.PollChangesNothingUntilTrue := by
  refine fun s x r em ev => ⟨fun hr mask value hm hv => ?_, fun hs hr => ?_⟩
  · obtain ⟨v, t, hread, hsame⟩ := readReg_of_pollable hr s
    rw [exec_waitForCondition_of_pollable hr hm hv]
    exact ⟨v, t, hread, hsame, fun hc => poll_of_eq hread hc _, fun hc => poll_of_ne hread hc _⟩
  · exact exec_waitForCondition_of_not_pollable (not_pollable hr) hs em ev x

end Machine
end Sys2Proof
end

section
/-! Proofs of the controller family (43_i2c_controller.md R212, R215). What the polls of the FIFO flags and one push of a command do,
then each operation with its obligation. -/

namespace Sys2Proof
namespace Machine

/-! ## The polls of the FIFO flags (42_busy_wait.md R203) -/

/-- The transmit FIFO has room. -/
theorem pollTfnf_of_lt {u : UnitId} {s : State} (h : (s.unit u).txf.length < 16) (k : State → State) :
    pollTfnf u s k = .next (k (s.drew 1)) :=
  poll_of_eq rfl (by rw [fieldMask_tfnf, statusWord_poll_tfnf]; exact decide_eq_true h) k

/-- The transmit FIFO is full. -/
theorem pollTfnf_of_ge {u : UnitId} {s : State} (h : 16 ≤ (s.unit u).txf.length) (k : State → State) :
    pollTfnf u s k = .next (s.drew 1) :=
  poll_of_ne rfl (by rw [fieldMask_tfnf, Ne, statusWord_poll_tfnf]; exact fun hc => Nat.not_lt.2 h (of_decide_eq_true hc)) k

/-- The receive FIFO has a byte. -/
theorem pollRfne_of_ne_nil {u : UnitId} {s : State} (h : (s.unit u).rxf ≠ []) (k : State → State) :
    pollRfne u s k = .next (k (s.drew 1)) :=
  poll_of_eq rfl (by rw [fieldMask_rfne, statusWord_poll_rfne]; exact decide_eq_true (List.length_pos_iff.2 h)) k

/-- The receive FIFO is empty. -/
theorem pollRfne_of_nil {u : UnitId} {s : State} (h : (s.unit u).rxf = []) (k : State → State) :
    pollRfne u s k = .next (s.drew 1) :=
  poll_of_ne rfl (by rw [fieldMask_rfne, Ne, statusWord_poll_rfne]; simp [UnitState.rfne, h]) k

/-! ## The assembled command words (30_encoding.md R115) -/

/-- Bits outside a field are kept when the field is replaced. -/
theorem insertField_or {f : Field} {d : Word} (h : d &&& ~~~fieldMask f = d) (e w : Word) :
    insertField f e (w ||| d) = insertField f e w ||| d := by
  rw [insertField, insertField, BitVec.and_or_distrib_right, h, BitVec.or_assoc, BitVec.or_assoc, BitVec.or_comm d]

/-- A byte has no bit outside a mask that holds the low eight. -/
theorem zeroExtend_and_of_ff (b : Byte) {m : Word} (h : (0xFF : Word) &&& m = 0xFF) : b.zeroExtend 32 &&& m = b.zeroExtend 32 := by
  rw [← zeroExtend_and_ff b, BitVec.and_assoc, h]

/-- A byte assigned to DAT of an empty word is that byte. -/
theorem insertField_dat_zero (b : Byte) : insertField .dat (b.zeroExtend 32) 0 = b.zeroExtend 32 := by
  have hfits : (b.zeroExtend 32).toNat < 2 ^ fieldWidth .dat := by
    have hwidth : fieldWidth .dat = 8 := rfl
    have := b.isLt
    simp [hwidth]
    omega
  rw [insertField, fieldValue, if_pos hfits]
  simp

/-- A command is its form's bits, and its byte in DAT. -/
theorem assemble_command (b : Byte) (c p : Word) :
    assemble [(.dat, b.zeroExtend 32), (.cmd, c), (.stop, p), (.restart, 0)] =
      assemble [(.cmd, c), (.stop, p), (.restart, 0)] ||| b.zeroExtend 32 := by
  have hd {f : Field} (hf : (0xFF : Word) &&& ~~~fieldMask f = 0xFF) := insertField_or (zeroExtend_and_of_ff b hf)
  simp only [assemble, insertFields, List.foldl_cons, List.foldl_nil]
  rw [insertField_dat_zero, ← hd (by decide), ← hd (by decide), ← hd (by decide)]
  simp

/-- The word of `writeByte` is the CW command of its byte (43_i2c_controller.md R212). -/
theorem assemble_cw (b : Byte) :
    assemble [(.dat, b.zeroExtend 32), (.cmd, 0), (.stop, 1), (.restart, 0)] = commandWord .cw b := by
  have hform : assemble [(.cmd, 0), (.stop, 1), (.restart, 0)] = 0x200 := by decide
  rw [assemble_command, commandWord_cw, hform]

/-! ## One push of a command (40_register_access.md R156) -/

/-- A command word meets the pattern of IC_DATA_CMD. -/
theorem admitsValue_of_commandForm {f : CommandForm} {v : Word} (h : commandForm v = some f) (u : UnitId) :
    (Reg.icDataCmd u).admitsValue v = true := by
  have hhigh := (formWord_iff f).1 ((commandForm_iff f).1 h)
  rw [admitsValue_icDataCmd, show 12 = 8 + 4 from rfl, BitVec.shiftRight_add, hhigh]
  cases f <;> rfl

/-- An enabled controller without an abort, a queued command or a pending read takes a controller command. -/
theorem pushCommand_of_controller {u : UnitId} {v : Word} {s : State} (hen : (s.unit u).enabled = true)
    (hrole : (s.unit u).role = .controller) (hform : formAdmitted .controller (commandForm v) = true)
    (habrt : (s.unit u).txAbrt = false) (htx : (s.unit u).txf = []) (hphase : s.phase.reading u = false) :
    pushCommand u v s = .ok (s.setUnit u { s.unit u with txf := [cmdOf v] }) := by
  simp [pushCommand, hen, hrole, hform, habrt, htx, hphase, UnitState.pushTx]

theorem Phase.reading_eq_false {p : Phase} {u : UnitId} (h : ∀ t, p ≠ .readPending u t) : p.reading u = false := by
  cases p with
  | idle => rfl
  | readPending c t => exact beq_eq_false_iff_ne.2 fun hc => h t (by rw [hc])

/-- If the statement that writes a value faults, every other step with that write faults the same. -/
theorem onWrite_of_writeStmt_setFault {r : Reg} {v : Word} {s : State} {f : Fault} (hs : s.fault = .none)
    (h : writeStmt r v s = .next (s.setFault f)) (k : State → State) : onWrite r v s k = .next (s.setFault f) := by
  cases hw : writeReg r v s with
  | ok m =>
    rw [writeStmt, onWrite_ok hw] at h
    have hfault : m.fault = some f := congrArg State.fault (Host.Outcome.next.inj h)
    rw [(writeReg_fault hw).1, hs] at hfault
    cases hfault
  | error g =>
    rw [writeStmt, onWrite_error hw] at h
    rw [onWrite_error hw, h]

/-! ## `writeByte` (43_i2c_controller.md R212) -/

theorem exec_writeByte (x : Option Var) (e : Expr) (s : State) : exec (.writeByte x e) s = execWriteByte x e s := rfl

section WriteByte

variable {s : State} {e : Expr} {b : Byte} (he : evalWord s.vars e = .ok (b.zeroExtend 32)) (x : Option Var)
include he

/-- Step 1 waits for TFNF. -/
theorem exec_writeByte_wait (hstep : s.pc.step = 0) :
    exec (.writeByte x e) s = pollTfnf s.board.ctrlUnit s State.advance := by
  simp only [exec_writeByte, execWriteByte, he, withOperand_ok, hstep]

/-- Step 2 writes the CW command of the byte. -/
theorem exec_writeByte_push (hstep : s.pc.step = 1) :
    exec (.writeByte x e) s = onWrite (.icDataCmd s.board.ctrlUnit) (commandWord .cw b) s State.advance := by
  simp only [exec_writeByte, execWriteByte, he, withOperand_ok, hstep, assemble_cw]

/-- Step 3 reads the abort flag once. -/
theorem exec_writeByte_check (hstep : s.pc.step = 2) :
    exec (.writeByte x e) s =
      if (s.unit s.board.ctrlUnit).txAbrt = false then .next ((s.drew 1).ret x (.bool true)) else .next (s.drew 1).advance := by
  simp only [exec_writeByte, execWriteByte, he, withOperand_ok, hstep, checkAbort]
  rw [onRead_ok rfl, getFlag_eq]
  simp only [rp2350Bits, rawIntrStatWord_txAbrt]

/-- Step 4 reads the abort reason, which changes no register. -/
theorem exec_writeByte_reason (hstep : s.pc.step = 3) : exec (.writeByte x e) s = .next (s.drew 1).advance := by
  simp only [exec_writeByte, execWriteByte, he, withOperand_ok, hstep]
  rfl

/-- Step 5 clears the abort and returns false. -/
theorem exec_writeByte_clear (hstep : s.pc.step = 4) :
    exec (.writeByte x e) s = .next (((s.setUnit s.board.ctrlUnit
      { s.unit s.board.ctrlUnit with txAbrt := false, abrtSrc := 0 }).drew 1).ret x (.bool false)) := by
  simp only [exec_writeByte, execWriteByte, he, withOperand_ok, hstep]
  rfl

end WriteByte

/-- Settles O44: each step is one poll, push or read, with the lemma of that access. -/
theorem writeByteRunsItsSteps : Obligations.WriteByteRunsItsSteps := by
  intro s x e b he
  refine ⟨fun hstep => ⟨fun hlt => ?_, fun hge => ?_⟩,
    fun hstep => ⟨fun hen hrole habrt htx hphase => ?_, fun f hs hfault => ?_⟩,
    fun hstep => ⟨fun habrt => ?_, fun habrt => ?_⟩, exec_writeByte_reason he x, exec_writeByte_clear he x⟩
  · rw [exec_writeByte_wait he x hstep, pollTfnf_of_lt hlt]
  · rw [exec_writeByte_wait he x hstep, pollTfnf_of_ge hge]
  · have hform := commandForm_commandWord .cw b
    have hpush := pushCommand_of_controller hen hrole (by rw [hform]; rfl) habrt htx (Phase.reading_eq_false hphase)
    rw [cmdOf_commandWord] at hpush
    rw [exec_writeByte_push he x hstep]
    exact onWrite_ok ((writeReg_of_admitted rfl (admitsValue_of_commandForm hform _) s).trans hpush) _
  · rw [exec_writeByte_push he x hstep]
    exact onWrite_of_writeStmt_setFault hs hfault _
  · rw [exec_writeByte_check he x hstep, if_pos habrt]
  · rw [exec_writeByte_check he x hstep, if_neg (by simp [habrt])]

/-! ## `receiveRequestedBytesFromMemory` (43_i2c_controller.md R215) -/

theorem exec_receiveRequestedBytesFromMemory (x : Option Var) (s : State) :
    exec (.receiveRequestedBytesFromMemory x) s = execReceiveRequestedBytesFromMemory x s := rfl

/-- Settles O46: step 1 looks at `requested` alone, step 2 is the poll of RFNE, step 3 is the read of IC_DATA_CMD, whose DAT is the
byte it pops. -/
theorem receiveRequestedRunsItsSteps : Obligations.ReceiveRequestedRunsItsSteps := by
  intro s x
  rw [exec_receiveRequestedBytesFromMemory]
  refine ⟨fun hstep => ?_, fun hstep => ?_, fun hstep => ?_⟩ <;>
    simp only [execReceiveRequestedBytesFromMemory, hstep]
  · exact ⟨fun hreq => if_pos hreq, fun hreq => if_neg (by simp [hreq])⟩
  · exact ⟨fun hrx => pollRfne_of_ne_nil hrx _, fun hrx => pollRfne_of_nil hrx _⟩
  · refine ⟨fun b rest hen hrx => ?_, fun hen hs => ?_⟩
    · rw [onRead_ok (r := .icDataCmd _) (popData_of_cons hen hrx), getField_dat, dataCmdWord_and_ff, UnitState.popRx, hrx]
      rfl
    · rw [onRead_error (r := .icDataCmd _) (if_pos hen), raise_of_none hs]

end Machine
end Sys2Proof
end
section
/-! Who may change RD_REQ and TX_ABRT (10_state.md R49). One argument serves both flags: a read clears a flag only at its own
register, a write changes one only by a disable, and each instruction is at most one access (43_i2c_controller.md R212,
44_i2c_target.md R243, 45_i2c_bus_engine.md section 2). -/

namespace Sys2Proof
namespace Machine

/-- The two flags of 10_state.md R49. -/
inductive StatusFlag where
  | rdReq
  | txAbrt

/-- The flag as it stands in a unit. -/
def UnitState.status (un : UnitState) : StatusFlag → Bool
  | .rdReq => un.rdReq
  | .txAbrt => un.txAbrt

/-- The register whose read clears the flag (40_register_access.md R158, R159). -/
def StatusFlag.clearReg : StatusFlag → UnitId → Reg
  | .rdReq, u => .icClrRdReq u
  | .txAbrt, u => .icClrTxAbrt u

/-- The unit's flag is the same in both states. -/
def SameStatus (f : StatusFlag) (u : UnitId) (s t : State) : Prop := (t.unit u).status f = (s.unit u).status f

/-- The unit is enabled before and disabled after. -/
def Disables (u : UnitId) (s t : State) : Prop := (s.unit u).enabled = true ∧ (t.unit u).enabled = false

/-! ## One access -/

theorem SameHardware.sameStatus {s t : State} (h : SameHardware s t) (f : StatusFlag) (u : UnitId) : SameStatus f u s t :=
  congrArg (UnitState.status · f) (h.units u)

theorem unit_setUnit_cases (s : State) (u w : UnitId) (un : UnitState) :
    u = w ∧ (s.setUnit w un).unit u = un ∨ (s.setUnit w un).unit u = s.unit u := by
  by_cases huw : u = w
  · subst huw
    exact .inl ⟨rfl, State.unit_setUnit_self s u un⟩
  · exact .inr (State.unit_setUnit_of_ne s w u un huw)

/-- A unit replaced by one with the same flag. -/
theorem sameStatus_setUnit {f : StatusFlag} {s : State} {w : UnitId} {un : UnitState}
    (h : un.status f = (s.unit w).status f) (u : UnitId) : SameStatus f u s (s.setUnit w un) := by
  obtain ⟨rfl, hun⟩ | hun := unit_setUnit_cases s u w un
  · rw [SameStatus, hun, h]
  · rw [SameStatus, hun]

/-- A fault entry keeps the flags. -/
theorem Raises.sameStatus {s t : State} (h : Raises s (.next t)) (f : StatusFlag) (u : UnitId) : SameStatus f u s t := by
  obtain ⟨g, hg⟩ := h
  obtain rfl | rfl := raise_next hg.symm <;> rfl

theorem popData_ok {u : UnitId} {s m : State} {v : Word} (h : popData u s = .ok (v, m)) :
    m = (s.setUnit u (s.unit u).popRx).drew 1 := by
  unfold popData at h
  split at h
  · cases h
  split at h
  · cases h
  · cases h; rfl

/-- A read clears a flag only at the flag's own register. -/
theorem readReg_status {r : Reg} {s m : State} {v : Word} (h : readReg r s = .ok (v, m)) (f : StatusFlag) (u : UnitId) :
    SameStatus f u s m ∨ r = f.clearReg u ∧ (m.unit u).status f = false := by
  cases r with
  | icDataCmd w =>
    obtain rfl := popData_ok h
    left
    exact sameStatus_setUnit (by cases f <;> rfl) u
  | icClrRdReq w =>
    cases h
    cases f with
    | txAbrt => left; exact sameStatus_setUnit (by rfl) u
    | rdReq =>
      obtain ⟨rfl, hun⟩ | hun := unit_setUnit_cases s u w { s.unit w with rdReq := false }
      · exact .inr ⟨rfl, congrArg UnitState.rdReq hun⟩
      · exact .inl (congrArg UnitState.rdReq hun)
  | icClrTxAbrt w =>
    cases h
    cases f with
    | rdReq => left; exact sameStatus_setUnit (by rfl) u
    | txAbrt =>
      obtain ⟨rfl, hun⟩ | hun := unit_setUnit_cases s u w { s.unit w with txAbrt := false, abrtSrc := 0 }
      · exact .inr ⟨rfl, congrArg UnitState.txAbrt hun⟩
      · exact .inl (congrArg UnitState.txAbrt hun)
  | gpioOutSet | gpioOutClr | gpioOeSet | gpioOeClr => cases h
  | _ => cases h; exact .inl rfl

/-- A write changes a flag only by disabling its unit. -/
theorem writeReg_status {r : Reg} {v : Word} {s m : State} (h : writeReg r v s = .ok m) (f : StatusFlag) (u : UnitId) :
    SameStatus f u s m ∨ Disables u s m := by
  obtain rfl | ⟨w, -, ⟨-, rfl⟩ | ⟨-, rfl⟩ | ⟨-, rfl⟩⟩ | ⟨w, -, h⟩ | ⟨w, -, -, -, h⟩ | ⟨w, -, hen, hoff, h⟩ | ⟨n, -, rfl⟩ |
    ⟨n, -, rfl⟩ | ⟨o, rfl, -⟩ | ⟨o, rfl, -⟩ := storeReg_cases (writeReg_ok h).2.2
  case inr.inl.inl | inr.inl.inr.inl | inr.inl.inr.inr => exact .inl (sameStatus_setUnit (by cases f <;> rfl) u)
  case inr.inr.inl =>
    obtain ⟨rfl, -⟩ := pushCommand_ok h
    exact .inl (sameStatus_setUnit (by cases f <;> rfl) u)
  case inr.inr.inr.inl =>
    obtain ⟨rfl, -⟩ := enableUnit_ok h
    exact .inl (sameStatus_setUnit (by cases f <;> rfl) u)
  case inr.inr.inr.inr.inl =>
    obtain ⟨⟨_, _, _, rfl⟩, -⟩ := disableUnit_ok h
    by_cases huw : u = w
    · subst huw
      exact .inr ⟨hen, (congrArg UnitState.enabled (State.unit_setUnit_self s u _)).trans hoff⟩
    · exact .inl (congrArg (UnitState.status · f) (State.unit_setUnit_of_ne s w u _ huw))
  all_goals exact .inl rfl

/-! ## One CPU step -/

/-- What the outcome of a CPU step may do to the flag: nothing, whatever a disable draws, or clear it, which takes `c`. -/
def StatusChange (f : StatusFlag) (u : UnitId) (c : Prop) (s : State) (o : Outcome) : Prop :=
  ∀ t, o = .next t → SameStatus f u s t ∨ Disables u s t ∨ c ∧ (t.unit u).status f = false

section CpuStep

variable {f : StatusFlag} {u : UnitId} {c : Prop} {s : State}

theorem statusChange_raise (g : Fault) : StatusChange f u c s (raise g s) := fun _ h =>
  .inl (Raises.sameStatus ⟨g, h.symm⟩ f u)

theorem statusChange_refused (r : Refusal) : StatusChange f u c s (.refused r) := fun _ h => by cases h

theorem statusChange_next {t : State} (h : SameHardware s t) : StatusChange f u c s (.next t) := fun t' ht => by
  cases ht
  exact .inl (h.sameStatus f u)

theorem statusChange_withOperand {α : Type} {v : Except EvalError α} {k : α → Outcome}
    (hk : ∀ a, StatusChange f u c s (k a)) : StatusChange f u c s (withOperand s v k) := fun t h => by
  obtain h | ⟨a, -, h⟩ := withOperand_next h
  · exact .inl (h.sameStatus f u)
  · exact hk a t h

theorem statusChange_onRead {r : Reg} {k : Word → State → Outcome} (hr : r = f.clearReg u → c)
    (hk : ∀ v m t, k v m = .next t → SameHardware m t) : StatusChange f u c s (onRead r s k) := fun t h => by
  obtain h | ⟨v, m, hm, h⟩ := onRead_next h
  · exact .inl (h.sameStatus f u)
  · have hmt := (hk v m t h).sameStatus f u
    obtain h | ⟨hreg, h⟩ := readReg_status hm f u
    · exact .inl (hmt.trans h)
    · exact .inr (.inr ⟨hr hreg, hmt.trans h⟩)

theorem statusChange_onWrite {r : Reg} {v : Word} {k : State → State} (hk : ∀ m, SameHardware m (k m)) :
    StatusChange f u c s (onWrite r v s k) := fun t h => by
  obtain h | ⟨m, hm, rfl⟩ := onWrite_next h
  · exact .inl (h.sameStatus f u)
  · obtain h | ⟨hon, hoff⟩ := writeReg_status hm f u
    · exact .inl (((hk m).sameStatus f u).trans h)
    · exact .inr (.inl ⟨hon, by rw [(hk m).units u, hoff]⟩)

/-- A register that `modify` takes may be polled too. -/
theorem pollable_of_modifiable {r : Reg} (hr : Reg.modifiable r = true) : Reg.pollable r = true := by
  cases r with
  | icStatus u | icRawIntrStat u | icEnableStatus u | icTxAbrtSource u => rfl
  | _ => exact hr

/-- No poll clears a flag. -/
theorem ne_clearReg_of_pollable {r : Reg} (hr : Reg.pollable r = true) : r ≠ f.clearReg u := by
  rintro rfl
  cases f <;> cases hr

theorem statusChange_modifyRead {r : Reg} (hr : Reg.modifiable r = true) : StatusChange f u c s (modifyRead r s) :=
  statusChange_onRead (fun h => absurd h (ne_clearReg_of_pollable (pollable_of_modifiable hr))) fun v m t h => by
    cases h
    constructor <;> simp

theorem statusChange_poll {r : Reg} {mask value : Word} {k : State → State} (hr : Reg.pollable r = true)
    (hk : ∀ m, SameHardware m (k m)) : StatusChange f u c s (poll r mask value s k) :=
  statusChange_onRead (fun h => absurd h (ne_clearReg_of_pollable hr)) fun v m t h => by
    split at h <;> cases h
    · exact hk m
    · exact SameHardware.refl m

theorem statusChange_readStmt {r : Reg} {x : Option Var} (hr : r = f.clearReg u → c) :
    StatusChange f u c s (readStmt x r s) :=
  statusChange_onRead hr fun v m t h => by cases h; exact sameHardware_ret m x _

/-! ## The pseudo-instructions -/

theorem statusChange_withPin {w : Word} {k : Pin → Outcome} (hk : ∀ p, StatusChange f u c s (k p)) :
    StatusChange f u c s (withPin w s k) := by
  unfold withPin
  split
  · exact hk _
  · exact statusChange_raise _

theorem statusChange_withBusAddress {a : Word} {k : Outcome} (hk : StatusChange f u c s k) :
    StatusChange f u c s (withBusAddress a s k) := by
  unfold withBusAddress
  split
  · exact hk
  · exact statusChange_raise _

theorem statusChange_digitalOutputStep (x : Option Var) (p : Pin) : StatusChange f u c s (digitalOutputStep x p s) := by
  unfold digitalOutputStep
  split
  · exact statusChange_modifyRead rfl
  · exact statusChange_onWrite sameHardware_advance
  · exact statusChange_onWrite sameHardware_advance
  · exact statusChange_modifyRead rfl
  · exact statusChange_onWrite sameHardware_advance
  · exact statusChange_onWrite (sameHardware_retNone · x)

theorem statusChange_signalPinStep (x : Option Var) (p : Pin) (b : Bool) : StatusChange f u c s (signalPinStep x p b s) := by
  unfold signalPinStep
  split
  · exact statusChange_modifyRead rfl
  · exact statusChange_onWrite sameHardware_advance
  · exact statusChange_onWrite sameHardware_advance
  · exact statusChange_modifyRead rfl
  · exact statusChange_onWrite (sameHardware_retNone · x)

theorem statusChange_controllerConfigStep (x : Option Var) (a : Word) :
    StatusChange f u c s (controllerConfigStep x a s) := by
  unfold controllerConfigStep
  split
  · exact statusChange_modifyRead rfl
  · exact statusChange_onWrite sameHardware_advance
  · exact statusChange_modifyRead rfl
  · exact statusChange_onWrite sameHardware_advance
  · exact statusChange_onWrite sameHardware_advance
  · exact statusChange_modifyRead rfl
  · exact statusChange_onWrite (sameHardware_retNone · x)

theorem statusChange_targetConfigStep (x : Option Var) (a : Word) : StatusChange f u c s (targetConfigStep x a s) := by
  unfold targetConfigStep
  split
  · exact statusChange_modifyRead rfl
  · exact statusChange_onWrite sameHardware_advance
  · exact statusChange_modifyRead rfl
  · exact statusChange_onWrite sameHardware_advance
  · exact statusChange_onWrite fun m => by constructor <;> simp
  · exact statusChange_modifyRead rfl
  · exact statusChange_onWrite (sameHardware_retNone · x)

theorem statusChange_execWrite (r : Reg) (arg : WriteArg) (x : Option Var) : StatusChange f u c s (execWrite r arg s x) := by
  cases arg with
  | value e => exact statusChange_withOperand fun v => statusChange_onWrite (sameHardware_retNone · x)
  | fields fs =>
    simp only [execWrite]
    split
    · exact statusChange_raise _
    split
    · exact statusChange_refused _
    · exact statusChange_withOperand fun ws => statusChange_onWrite (sameHardware_retNone · x)

theorem statusChange_execModify (r : Reg) (fs : List (Field × Expr)) (x : Option Var) :
    StatusChange f u c s (execModify r fs s x) := by
  unfold execModify
  split
  · exact statusChange_raise _
  next hr =>
  split
  · exact statusChange_refused _
  refine statusChange_withOperand fun ws => ?_
  split
  · exact statusChange_modifyRead (by simpa using hr)
  · exact statusChange_onWrite (sameHardware_retNone · x)

theorem statusChange_execWaitForCondition (r : Reg) (em ev : Expr) (x : Option Var) :
    StatusChange f u c s (execWaitForCondition r em ev s x) := by
  unfold execWaitForCondition
  split
  · exact statusChange_raise _
  next hr =>
  exact statusChange_withOperand fun m => statusChange_withOperand fun v =>
    statusChange_poll (by simpa using hr) (sameHardware_retNone · x)

/-- `writeByte` clears TX_ABRT at its last step. -/
theorem statusChange_execWriteByte {x : Option Var} {e : Expr}
    (hc : 4 ≤ s.pc.step → .icClrTxAbrt s.board.ctrlUnit = f.clearReg u → c) :
    StatusChange f u c s (execWriteByte x e s) := by
  refine statusChange_withOperand fun b => ?_
  split
  · exact statusChange_poll rfl sameHardware_advance
  · exact statusChange_onWrite sameHardware_advance
  · refine statusChange_onRead (fun h => absurd h (ne_clearReg_of_pollable rfl)) fun v m t h => ?_
    split at h <;> cases h
    · exact sameHardware_ret m x _
    · exact sameHardware_advance m
  · exact statusChange_onRead (fun h => absurd h (ne_clearReg_of_pollable rfl)) fun v m t h => by
      cases h; exact sameHardware_advance m
  · next h0 h1 h2 h3 =>
    have hstep : 4 ≤ s.pc.step := by grind
    exact statusChange_onRead (hc hstep) fun v m t h => by cases h; exact sameHardware_ret m x _

theorem statusChange_execRequestByteFromMemory (x : Option Var) :
    StatusChange f u c s (execRequestByteFromMemory s x) := by
  unfold execRequestByteFromMemory
  split
  · exact statusChange_poll rfl sameHardware_advance
  · exact statusChange_onWrite fun m => by constructor <;> simp

/-- A read of IC_DATA_CMD clears neither flag. -/
theorem icDataCmd_ne_clearReg (w : UnitId) : .icDataCmd w ≠ f.clearReg u := by cases f <;> nofun

theorem statusChange_execReceiveRequestedBytesFromMemory (x : Option Var) :
    StatusChange f u c s (execReceiveRequestedBytesFromMemory x s) := by
  unfold execReceiveRequestedBytesFromMemory
  split
  · split
    · exact statusChange_next (sameHardware_ret s x _)
    · exact statusChange_next (sameHardware_advance s)
  · exact statusChange_poll rfl sameHardware_advance
  · exact statusChange_onRead (fun h => absurd h (icDataCmd_ne_clearReg _)) fun v m t h => by
      cases h; exact sameHardware_ret m x _

theorem statusChange_execReceiveBytesToMemory (x : Option Var) :
    StatusChange f u c s (execReceiveBytesToMemory s x) := by
  unfold execReceiveBytesToMemory
  split
  · exact statusChange_poll rfl sameHardware_advance
  · exact statusChange_onRead (fun h => absurd h (icDataCmd_ne_clearReg _)) fun v m t h => by
      cases h; constructor <;> simp

/-- `serveBytesFromMemory` clears RD_REQ at its step 2. -/
theorem statusChange_execServeBytesFromMemory {x : Option Var}
    (hc : s.pc.step = 1 → .icClrRdReq s.board.tgtUnit = f.clearReg u → c) :
    StatusChange f u c s (execServeBytesFromMemory s x) := by
  unfold execServeBytesFromMemory
  split
  · exact statusChange_poll rfl sameHardware_advance
  · next hstep => exact statusChange_onRead (hc hstep) fun v m t h => by cases h; exact sameHardware_advance m
  · exact statusChange_onWrite (sameHardware_retNone · x)

end CpuStep

/-! ## The instructions -/

/-- The instruction clears the flag of the unit at this step: its access row, `read` of the register, or the operation that
reads it (43_i2c_controller.md R212; 44_i2c_target.md R243; a step index above 4 is log 24). -/
def Clears (i : Instr) (s : State) (u : UnitId) : StatusFlag → Prop
  | .rdReq => (∃ x, i = .readIcClrRdReq x u ∨ i = .read x (.icClrRdReq u)) ∨
      (∃ x, i = .serveBytesFromMemory x) ∧ u = s.board.tgtUnit ∧ s.pc.step = 1
  | .txAbrt => (∃ x, i = .readIcClrTxAbrt x u ∨ i = .read x (.icClrTxAbrt u)) ∨
      (∃ x e, i = .writeByte x e) ∧ u = s.board.ctrlUnit ∧ 4 ≤ s.pc.step

theorem clears_of_readInstr {f : StatusFlag} {u : UnitId} {x : Option Var} {i : Instr}
    (h : readInstr x (f.clearReg u) = some i) (s : State) : Clears i s u f := by
  cases f <;> cases h <;> exact .inl ⟨x, .inl rfl⟩

theorem clears_of_read {f : StatusFlag} {u : UnitId} {x : Option Var} {r : Reg} (h : r = f.clearReg u) (s : State) :
    Clears (.read x r) s u f := by
  subst h
  cases f <;> exact .inl ⟨x, .inr rfl⟩

/-- An access row is one read or one write. -/
theorem exec_of_encode {i : Instr} {a : Access} (h : encode i = some a) (s : State) :
    (∃ x r, readInstr x r = some i ∧ exec i s = readStmt x r s) ∨ ∃ r v, exec i s = writeStmt r v s := by
  cases i with
  | readIcCon x u => exact .inl ⟨x, .icCon u, rfl, rfl⟩
  | readIcTar x u => exact .inl ⟨x, .icTar u, rfl, rfl⟩
  | readIcSar x u => exact .inl ⟨x, .icSar u, rfl, rfl⟩
  | readIcDataCmd x u => exact .inl ⟨x, .icDataCmd u, rfl, rfl⟩
  | readIcRawIntrStat x u => exact .inl ⟨x, .icRawIntrStat u, rfl, rfl⟩
  | readIcClrRdReq x u => exact .inl ⟨x, .icClrRdReq u, rfl, rfl⟩
  | readIcClrTxAbrt x u => exact .inl ⟨x, .icClrTxAbrt u, rfl, rfl⟩
  | readIcEnable x u => exact .inl ⟨x, .icEnable u, rfl, rfl⟩
  | readIcStatus x u => exact .inl ⟨x, .icStatus u, rfl, rfl⟩
  | readIcTxAbrtSource x u => exact .inl ⟨x, .icTxAbrtSource u, rfl, rfl⟩
  | readIcEnableStatus x u => exact .inl ⟨x, .icEnableStatus u, rfl, rfl⟩
  | readPad x n => exact .inl ⟨x, .pad n, rfl, rfl⟩
  | readCtrl x n => exact .inl ⟨x, .ctrl n, rfl, rfl⟩
  | readGpioOut x => exact .inl ⟨x, .gpioOut, rfl, rfl⟩
  | readGpioOe x => exact .inl ⟨x, .gpioOe, rfl, rfl⟩
  | writeIcCon u v | writeIcTar u v | writeIcSar u v | writeIcEnable u v | writeIcDataCmdCw u b | writeIcDataCmdCr u b
  | writeIcDataCmdTd u b | writePad n v | writeCtrl n v | writeGpioOut v | writeGpioOutSet v | writeGpioOutClr v
  | writeGpioOe v | writeGpioOeSet v | writeGpioOeClr v => exact .inr ⟨_, _, rfl⟩
  | _ => cases h

/-- An instruction changes a flag of a unit only by a disable, or clears it where it is listed. -/
theorem statusChange_exec (f : StatusFlag) (u : UnitId) (i : Instr) (s : State) :
    StatusChange f u (Clears i s u f) s (exec i s) := by
  cases hrow : encode i with
  | some a =>
    obtain ⟨x, r, hi, he⟩ | ⟨r, v, he⟩ := exec_of_encode hrow s
    · exact he ▸ statusChange_readStmt fun h => clears_of_readInstr (h ▸ hi) s
    · exact he ▸ statusChange_onWrite sameHardware_finish
  | none =>
    cases i with
    | read x r => exact statusChange_readStmt fun h => clears_of_read h s
    | write r arg x => exact statusChange_execWrite r arg x
    | modify r fs x => exact statusChange_execModify r fs x
    | configureDigitalOutputPin n x =>
      exact statusChange_withOperand fun w => statusChange_withPin fun p => statusChange_digitalOutputStep x p
    | configureSignalPin n b x =>
      exact statusChange_withOperand fun w => statusChange_withOperand fun b =>
        statusChange_withPin fun p => statusChange_signalPinStep x p b
    | waitForCondition r m v x => exact statusChange_execWaitForCondition r m v x
    | configureAsController a x =>
      exact statusChange_withOperand fun w => statusChange_withBusAddress (statusChange_controllerConfigStep x w)
    | writeByte x e =>
      refine statusChange_execWriteByte fun hstep hreg => ?_
      cases f <;> cases hreg
      exact .inr ⟨⟨x, e, rfl⟩, rfl, hstep⟩
    | requestByteFromMemory x => exact statusChange_execRequestByteFromMemory x
    | receiveRequestedBytesFromMemory x => exact statusChange_execReceiveRequestedBytesFromMemory x
    | configureAsTarget a x =>
      exact statusChange_withOperand fun w => statusChange_withBusAddress (statusChange_targetConfigStep x w)
    | receiveBytesToMemory x => exact statusChange_execReceiveBytesToMemory x
    | serveBytesFromMemory x =>
      refine statusChange_execServeBytesFromMemory fun hstep hreg => ?_
      cases f <;> cases hreg
      exact .inr ⟨⟨x, rfl⟩, rfl, hstep⟩
    | _ => cases hrow

/-! ## The statements that hold no instruction (30_encoding.md R142) -/

theorem jumpTo_next {l : Label} {s t : State} (h : jumpTo l s = .next t) : SameHardware s t := by
  unfold jumpTo at h
  split at h
  · cases h; exact sameHardware_jump s _
  · cases h

/-- Such a statement leaves the registers alone, but for a value of IC_DATA_CMD that is no command form (log 26). -/
theorem runOther_next {s t : State} (h : runOther s = .next t) :
    Raises s (.next t) ∨ SameHardware s t ∨ ∃ u v, writeStmt (.icDataCmd u) v s = .next t := by
  unfold runOther at h
  split at h
  · split at h
    · cases h; exact .inr (.inl (.refl s))
    next e _ =>
    cases e with
    | access a => exact .inl ⟨_, h.symm⟩
    | unadmitted a => exact .inl ⟨_, h.symm⟩
    | noForm u v => exact .inr (.inr ⟨u, v, h⟩)
  · unfold runAssign at h
    split at h
    · cases h; exact .inr (.inl (sameHardware_ret s _ _))
    · exact .inl (evalFailed_next h)
  · obtain h | ⟨b, -, h⟩ := withOperand_next h
    · exact .inl h
    · split at h
      · exact .inr (.inl (jumpTo_next h))
      · cases h; exact .inr (.inl (sameHardware_finish s))
  · exact .inr (.inl (jumpTo_next h))
  all_goals cases h; exact .inr (.inl (.refl s))

/-- A write of IC_DATA_CMD keeps the flags. -/
theorem writeStmt_icDataCmd_status {u : UnitId} {v : Word} {s t : State} (h : writeStmt (.icDataCmd u) v s = .next t)
    (f : StatusFlag) (w : UnitId) : SameStatus f w s t := by
  obtain h | ⟨m, hm, rfl⟩ := onWrite_next h
  · exact h.sameStatus f w
  · obtain ⟨rfl, -⟩ := pushCommand_ok (writeReg_ok hm).2.2
    exact sameStatus_setUnit (by cases f <;> rfl) w

theorem runOther_status {s t : State} (h : runOther s = .next t) (f : StatusFlag) (u : UnitId) : SameStatus f u s t := by
  obtain h | h | ⟨w, v, h⟩ := runOther_next h
  · exact h.sameStatus f u
  · exact h.sameStatus f u
  · exact writeStmt_icDataCmd_status h f u

/-! ## The joint steps (45_i2c_bus_engine.md section 2) -/

/-- Two units replaced by ones with the same flag. -/
theorem sameStatus_setUnit_setUnit {f : StatusFlag} {s : State} {c d : UnitId} {un un' : UnitState} (hne : d ≠ c)
    (h : un.status f = (s.unit c).status f) (h' : un'.status f = (s.unit d).status f) (u : UnitId) :
    SameStatus f u s ((s.setUnit c un).setUnit d un') := by
  refine (sameStatus_setUnit ?_ u).trans (sameStatus_setUnit h u)
  rw [h', State.unit_setUnit_of_ne _ _ _ _ hne]

/-- A joint step sets RD_REQ only as the BUS-READ-ADDR of the other unit. -/
theorem busEffect_rdReq {b : BusStep} {s t : State} (hen : s.busEnabled b = true) (h : busEffect b s = .ok t)
    (u : UnitId) : SameStatus .rdReq u s t ∨ (t.unit u).rdReq = true ∧ b = .readAddr (otherUnit u) := by
  obtain ⟨c, -, -, ⟨e, rest, -, -, -, rfl⟩ | ⟨rfl, -, rfl⟩⟩ | ⟨c, -, -, rfl⟩ | ⟨c, e, rest, -, -, -, -, rfl⟩ |
    ⟨c, -, -, rfl⟩ := busEffect_cases hen h
  · left; exact sameStatus_setUnit_setUnit (otherUnit_ne c) (by rfl) (by rfl) u
  · obtain rfl | rfl := eq_or_eq_otherUnit u c
    · left
      refine .trans (congrArg UnitState.rdReq (State.unit_setUnit_of_ne _ _ _ _ (otherUnit_ne u).symm)) ?_
      exact sameStatus_setUnit (f := .rdReq) (by rfl) u
    · right
      simp
  · left; exact sameStatus_setUnit (by rfl) u
  · left; exact sameStatus_setUnit_setUnit (otherUnit_ne c).symm (by rfl) (by rfl) u
  · left; exact sameStatus_setUnit (by rfl) u

/-- An acknowledged BUS-WRITE or BUS-READ-ADDR sets no abort. -/
theorem busEffect_txAbrt_of_acks {b : BusStep} {c : UnitId} {s t : State} (hb : b = .write c ∨ b = .readAddr c)
    (hack : s.acks c (otherUnit c) = true) (h : busEffect b s = .ok t) (u : UnitId) : SameStatus .txAbrt u s t := by
  obtain rfl | rfl := hb
  · simp only [busEffect, busWrite, hack, if_true] at h
    split at h
    · cases h
    split at h <;> cases h
    · rfl
    · exact sameStatus_setUnit_setUnit (otherUnit_ne c) (by rfl) (by rfl) u
  · simp only [busEffect, busReadAddr, hack, if_true] at h
    split at h <;> cases h
    exact sameStatus_setUnit_setUnit (otherUnit_ne c) (by rfl) (by rfl) u

/-- A BUS-WRITE or BUS-READ-ADDR runs on an up bus. -/
theorem busUp_of_busEnabled {b : BusStep} {c : UnitId} {s : State} (hb : b = .write c ∨ b = .readAddr c)
    (hen : s.busEnabled b = true) : s.busUp c = true := by
  obtain rfl | rfl := hb <;> exact (Bool.and_eq_true_iff.1 hen).2

/-- A unit replaced by one under an abort, its TX FIFO flushed. -/
theorem sameStatus_or_aborted {s : State} {c : UnitId} {un : UnitState} (habrt : un.txAbrt = true) (htx : un.txf = [])
    (u : UnitId) : SameStatus .txAbrt u s (s.setUnit c un) ∨
      u = c ∧ ((s.setUnit c un).unit u).txAbrt = true ∧ ((s.setUnit c un).unit u).txf = [] := by
  obtain ⟨huc, hun⟩ | hun := unit_setUnit_cases s u c un
  · exact .inr ⟨huc, (congrArg UnitState.txAbrt hun).trans habrt, (congrArg UnitState.txf hun).trans htx⟩
  · exact .inl (congrArg UnitState.txAbrt hun)

/-- A joint step sets TX_ABRT, and empties that TX FIFO, only as BUS-LOST, or as a step that the other unit does not
acknowledge. -/
theorem busEffect_txAbrt {b : BusStep} {s t : State} (hen : s.busEnabled b = true) (h : busEffect b s = .ok t)
    (u : UnitId) : SameStatus .txAbrt u s t ∨ (t.unit u).txAbrt = true ∧ (t.unit u).txf = [] ∧
      (b = .lost u ∨ (b = .write u ∨ b = .readAddr u) ∧ s.busUp u = true ∧ s.acks u (otherUnit u) = false) := by
  obtain ⟨c, -, hack, hb⟩ | ⟨c, -, hb, rfl⟩ | ⟨c, e, rest, -, -, -, -, rfl⟩ | ⟨c, rfl, -, rfl⟩ := busEffect_cases hen h
  · have hwr : b = .write c ∨ b = .readAddr c := hb.imp (fun ⟨_, _, hb, _⟩ => hb) And.left
    exact .inl (busEffect_txAbrt_of_acks hwr hack h u)
  · cases hack : s.acks c (otherUnit c) with
    | true => exact .inl (busEffect_txAbrt_of_acks hb hack h u)
    | false =>
      refine (sameStatus_or_aborted (by rfl) (by rfl) u).imp_right ?_
      rintro ⟨rfl, habrt, htx⟩
      exact ⟨habrt, htx, .inr ⟨hb, busUp_of_busEnabled hb hen, hack⟩⟩
  · left; exact sameStatus_setUnit_setUnit (otherUnit_ne c).symm (by rfl) (by rfl) u
  · refine (sameStatus_or_aborted (by rfl) (by rfl) u).imp_right ?_
    rintro ⟨rfl, habrt, htx⟩
    exact ⟨habrt, htx, .inl rfl⟩

/-- Settles O18: an instruction by the one access it makes (`statusChange_exec`), another statement by the writes it can make
(`runOther_status`), a joint step by its effect. -/
theorem statusFlagsChangeOnlyAsListed : Obligations.StatusFlagsChangeOnlyAsListed := by
  refine ⟨fun i s t u h => ⟨fun hne => ?_, fun hne => ?_⟩, fun s t u hfetch h => ?_, fun b s t u h => ?_⟩
  · exact (statusChange_exec .rdReq u i s t h).resolve_left hne |>.imp_right And.symm
  · exact (statusChange_exec .txAbrt u i s t h).resolve_left hne |>.imp_right And.symm
  · rw [cpuStep, hfetch] at h
    exact ⟨runOther_status h .rdReq u, runOther_status h .txAbrt u⟩
  · obtain rfl | h | ⟨hen, h⟩ := busTurn_next h
    · exact ⟨fun hne => absurd rfl hne, fun hne => absurd rfl hne⟩
    · exact ⟨fun hne => absurd (h.sameStatus .rdReq u) hne, fun hne => absurd (h.sameStatus .txAbrt u) hne⟩
    · exact ⟨(busEffect_rdReq hen h u).resolve_left, (busEffect_txAbrt hen h u).resolve_left⟩

end Machine
end Sys2Proof
end

section
/-! Proofs of the target operations (44_i2c_target.md R242, R243): the poll of RD_REQ, the push of a TD command and the write
faults, then each operation step by step. -/

namespace Sys2Proof
namespace Machine

/-! ## The poll of RD_REQ (42_busy_wait.md R203) -/

/-- The request flag is set. -/
theorem pollRdReq_of_true {u : UnitId} {s : State} (h : (s.unit u).rdReq = true) (k : State → State) :
    pollRdReq u s k = .next (k (s.drew 1)) :=
  poll_of_eq rfl (by rw [fieldMask_rdReq, rawIntrStatWord_poll_rdReq]; exact h) k

/-- The request flag is clear. -/
theorem pollRdReq_of_false {u : UnitId} {s : State} (h : (s.unit u).rdReq = false) (k : State → State) :
    pollRdReq u s k = .next (s.drew 1) :=
  poll_of_ne rfl (by rw [fieldMask_rdReq, Ne, rawIntrStatWord_poll_rdReq, h]; exact Bool.false_ne_true) k

/-! ## One push of target data (30_encoding.md R115; 40_register_access.md R156) -/

/-- The word of `serveBytesFromMemory` is the TD command of its byte (44_i2c_target.md R243). -/
theorem assemble_td (b : Byte) :
    assemble [(.dat, b.zeroExtend 32), (.cmd, 0), (.stop, 0), (.restart, 0)] = commandWord .td b := by
  have hform : assemble [(.cmd, 0), (.stop, 0), (.restart, 0)] = 0 := by decide
  rw [assemble_command, commandWord_td, hform]
  exact BitVec.zero_or

/-- The write of a command word is its push, whatever the push answers. -/
theorem writeReg_icDataCmd_commandWord (u : UnitId) (f : CommandForm) (b : Byte) (s : State) :
    writeReg (.icDataCmd u) (commandWord f b) s = pushCommand u (commandWord f b) s :=
  writeReg_of_admitted rfl (admitsValue_of_commandForm (commandForm_commandWord f b) u) s

/-- An enabled target with room in its transmit FIFO takes a target command. -/
theorem pushCommand_of_target {u : UnitId} {v : Word} {s : State} (hen : (s.unit u).enabled = true)
    (hrole : (s.unit u).role = .target) (hform : formAdmitted .target (commandForm v) = true)
    (hroom : (s.unit u).txf.length < Config.fifoDepth) :
    pushCommand u v s = .ok (s.setUnit u ((s.unit u).pushTx (cmdOf v))) := by
  simp [pushCommand, hen, hrole, hform, Nat.ne_of_lt hroom]

/-- Only a full transmit FIFO makes a push overflow. -/
theorem length_txf_of_pushCommand_txOverflow {u w : UnitId} {v : Word} {s : State}
    (h : pushCommand u v s = .error (.txOverflow w)) : (s.unit u).txf.length = Config.fifoDepth := by
  unfold pushCommand at h
  iterate 4 (split at h; · cases h)
  split at h
  · assumption
  · cases h

/-- A step that writes a register and ends in a fault entry got that fault from the write: a write that succeeds sets none. -/
theorem writeReg_error_of_onWrite_setFault {r : Reg} {v : Word} {s : State} {f : Fault} {k : State → State}
    (hk : ∀ m, (k m).fault = m.fault) (hs : s.fault = .none) (h : onWrite r v s k = .next (s.setFault f)) :
    writeReg r v s = .error f := by
  cases hw : writeReg r v s with
  | ok m =>
    rw [onWrite_ok hw] at h
    have hfault : (k m).fault = some f := congrArg State.fault (Host.Outcome.next.inj h)
    rw [hk, (writeReg_fault hw).1, hs] at hfault
    cases hfault
  | error g =>
    rw [onWrite_error hw, raise_of_none hs] at h
    have hfault : some g = some f := congrArg State.fault (Host.Outcome.next.inj h)
    rw [Option.some.inj hfault]

/-! ## `receiveBytesToMemory` (44_i2c_target.md R242) -/

section Receive

variable {s : State} (x : Option Var)

/-- Step 1 waits for RFNE. -/
theorem exec_receiveBytesToMemory_wait (hstep : s.pc.step = 0) :
    exec (.receiveBytesToMemory x) s = pollRfne s.board.tgtUnit s State.advance := by
  simp only [exec, execReceiveBytesToMemory, hstep]

/-- Steps 2 and 3 are one CPU step: the oldest byte is taken and stored, plus one. -/
theorem exec_receiveBytesToMemory_take (hstep : s.pc.step = 1) {b : Byte} {rest : List Byte}
    (hen : (s.unit s.board.tgtUnit).enabled = true) (hrx : (s.unit s.board.tgtUnit).rxf = b :: rest) :
    exec (.receiveBytesToMemory x) s =
      .next ((((s.setUnit s.board.tgtUnit { s.unit s.board.tgtUnit with rxf := rest }).drew 1).setMemoryValue
        (b + 1)).retNone x) := by
  simp only [exec, execReceiveBytesToMemory, hstep]
  rw [onRead_ok (r := .icDataCmd _) (popData_of_cons hen hrx), truncate_getField_dat, dataCmdWord_truncate, UnitState.popRx,
    hrx, List.tail_cons]

end Receive

/-- A legal unit that holds a received byte is enabled. -/
theorem UnitInv.enabled_of_rxf {un : UnitState} (h : UnitInv un) (hrx : un.rxf ≠ []) : un.enabled = true :=
  Bool.eq_true_of_not_eq_false fun hen => hrx (h.disabledEmpty hen).2

/-- Settles O48: the poll of RFNE, then the read that pops; on a legal unit RFNE implies that the unit is enabled, so neither step
can fault. -/
theorem receiveStoresTheIncrement : Obligations.ReceiveStoresTheIncrement := by
  intro s x
  refine ⟨fun hstep => ⟨fun hrx => ?_, fun hrx => ?_⟩, fun hstep b rest hen hrx => ?_, fun hinv hs hle hrx => ?_⟩
  · rw [exec_receiveBytesToMemory_wait x hstep, pollRfne_of_ne_nil hrx]
  · rw [exec_receiveBytesToMemory_wait x hstep, pollRfne_of_nil hrx]
  · exact ⟨b + 1, BitVec.toNat_add b 1, exec_receiveBytesToMemory_take x hstep hen hrx⟩
  · obtain hstep | hstep := Nat.le_one_iff_eq_zero_or_eq_one.1 hle
    · rw [exec_receiveBytesToMemory_wait x hstep, pollRfne_of_ne_nil hrx]
      exact ⟨_, rfl, by simp [hs]⟩
    · obtain ⟨b, rest, hcons⟩ := List.exists_cons_of_ne_nil hrx
      exact ⟨_, exec_receiveBytesToMemory_take x hstep ((hinv.unit _).enabled_of_rxf hrx) hcons, by simp [hs]⟩

/-! ## `serveBytesFromMemory` (44_i2c_target.md R243) -/

theorem servedByte_eq_getD (s : State) : servedByte s = s.memoryValue.getD 0 := by
  rw [servedByte]
  cases s.memoryValue <;> rfl

section Serve

variable {s : State} (x : Option Var)

/-- Step 1 waits for RD_REQ. -/
theorem exec_serveBytesFromMemory_wait (hstep : s.pc.step = 0) :
    exec (.serveBytesFromMemory x) s = pollRdReq s.board.tgtUnit s State.advance := by
  simp only [exec, execServeBytesFromMemory, hstep]

/-- Step 2 clears RD_REQ. -/
theorem exec_serveBytesFromMemory_clear (hstep : s.pc.step = 1) :
    exec (.serveBytesFromMemory x) s =
      .next ((s.setUnit s.board.tgtUnit { s.unit s.board.tgtUnit with rdReq := false }).drew 1).advance := by
  simp only [exec, execServeBytesFromMemory, hstep]
  rfl

/-- Step 3 writes the TD command of `memoryValue`, or of 0. -/
theorem exec_serveBytesFromMemory_push (hstep : s.pc.step = 2) :
    exec (.serveBytesFromMemory x) s =
      onWrite (.icDataCmd s.board.tgtUnit) (commandWord .td (s.memoryValue.getD 0)) s fun t => t.retNone x := by
  simp only [exec, execServeBytesFromMemory, hstep, assemble_td, servedByte_eq_getD]

end Serve

/-- Settles O49: the poll of RD_REQ, the read that clears it, and the push of a TD command, whose faults are those of the write. -/
theorem servePushesTheStoredByte : Obligations.ServePushesTheStoredByte := by
  intro s x
  refine ⟨fun hstep => ⟨fun hreq => ?_, fun hreq => ?_⟩, exec_serveBytesFromMemory_clear x, fun hstep => ?_⟩
  · rw [exec_serveBytesFromMemory_wait x hstep, pollRdReq_of_true hreq]
  · rw [exec_serveBytesFromMemory_wait x hstep, pollRdReq_of_false hreq]
  · rw [exec_serveBytesFromMemory_push x hstep]
    refine ⟨fun hen hrole hroom => ?_, fun f hs hfault => onWrite_of_writeStmt_setFault hs hfault _, fun hfault hs => ?_⟩
    · have hpush := pushCommand_of_target (v := commandWord .td (s.memoryValue.getD 0)) hen hrole
        (by rw [commandForm_commandWord]; rfl) hroom
      rw [cmdOf_commandWord] at hpush
      exact onWrite_ok ((writeReg_icDataCmd_commandWord _ .td _ s).trans hpush) _
    · have herr := writeReg_error_of_onWrite_setFault (State.retNone_fault · x) hs hfault
      rw [writeReg_icDataCmd_commandWord] at herr
      exact length_txf_of_pushCommand_txOverflow herr

end Machine
end Sys2Proof
end

section
/-! Proofs that the decoder and the encoder agree (30_encoding.md R112 to R115) and that a refused access is a fault
(20_memory.md R83 to R86). Each row is one register's read or write, so the two tables are compared register by register. -/

namespace Sys2Proof
namespace Machine

/-! ## The rows, each with its register -/

/-- The row that a read of a register decodes to is encoded by that read. -/
theorem encode_of_readInstr {x : Option Var} {r : Reg} {i : Instr} (h : readInstr x r = some i) :
    i.wf = true ∧ encode i = some (readAccess x r) := by
  cases r <;> cases h <;> exact ⟨rfl, rfl⟩

/-- The command instruction of a value is of the value's form, and the value is its command word. -/
theorem commandInstr_some {u : UnitId} {v : Word} {i : Instr} (h : commandInstr u v = some i) :
    (∃ f, commandForm v = some f) ∧ i.wf = true ∧ encode i = some (writeAccess (.icDataCmd u) v) := by
  unfold commandInstr at h
  split at h
  case h_4 => cases h
  all_goals
    next hf =>
    cases h
    rw [commandByte_eq]
    exact ⟨⟨_, hf⟩, rfl, congrArg (fun w => some (writeAccess (.icDataCmd u) w)) (commandWord_truncate hf)⟩

theorem commandInstr_commandWord (u : UnitId) (f : CommandForm) (b : Byte) :
    commandInstr u (commandWord f b) = some (match f with
      | .cw => .writeIcDataCmdCw u b
      | .cr => .writeIcDataCmdCr u b
      | .td => .writeIcDataCmdTd u b) := by
  rw [commandInstr, commandForm_commandWord, commandByte_eq, truncate_commandWord]
  cases f <;> rfl

theorem writeInstr_icDataCmd {u : UnitId} {a v : Word} {i : Instr} :
    writeInstr a v (.icDataCmd u) = .ok i ↔ commandInstr u v = some i := by
  cases h : commandInstr u v <;> simp [writeInstr, h]

theorem admitsValue_eq_of_mask {r : Reg} {m : Word} (h : ~~~r.writeMask = m) (v : Word) : r.admitsValue v = (v &&& m == 0) := by
  rw [Reg.admitsValue, h]

/-- The value pattern of an opcode row is the pattern of its register (30_encoding.md R112). -/
theorem wf_of_writeInstr {r : Reg} {a v : Word} {i : Instr} (h : writeInstr a v r = .ok i) : i.wf = r.admitsValue v := by
  cases r with
  | icDataCmd u =>
    obtain ⟨⟨f, hf⟩, hwf, -⟩ := commandInstr_some (writeInstr_icDataCmd.1 h)
    rw [hwf, admitsValue_of_commandForm hf]
  | icCon u | icTar u | icSar u | icEnable u | pad n | ctrl n =>
    cases h
    rw [Instr.wf, admitsValue_eq_of_mask]
    simp only [Reg.writeMask, Reg.writeFields, Reg.readFields]
    decide
  | gpioOut | gpioOutSet | gpioOutClr | gpioOe | gpioOeSet | gpioOeClr =>
    cases h
    rw [Instr.wf, admitsValue_eq_of_mask]
    decide
  | _ => cases h

theorem encode_of_writeInstr {r : Reg} {a v : Word} {i : Instr} (h : writeInstr a v r = .ok i) :
    r.writable = true ∧ encode i = some (writeAccess r v) := by
  cases r with
  | icDataCmd u => exact ⟨rfl, (commandInstr_some (writeInstr_icDataCmd.1 h)).2.2⟩
  | _ => cases h <;> exact ⟨rfl, rfl⟩

/-- An instruction with an encoding is the row of one register, for R or for W. -/
theorem encode_some {i : Instr} {a : Access} (h : encode i = some a) :
    (∃ x r, a = readAccess x r ∧ readInstr x r = some i) ∨ ∃ r v, a = writeAccess r v ∧ writeInstr r.addr v r = .ok i := by
  cases i with
  | writeIcDataCmdCw u b => cases h; exact .inr ⟨_, _, rfl, writeInstr_icDataCmd.2 (commandInstr_commandWord u .cw b)⟩
  | writeIcDataCmdCr u b => cases h; exact .inr ⟨_, _, rfl, writeInstr_icDataCmd.2 (commandInstr_commandWord u .cr b)⟩
  | writeIcDataCmdTd u b => cases h; exact .inr ⟨_, _, rfl, writeInstr_icDataCmd.2 (commandInstr_commandWord u .td b)⟩
  | writeIcCon u v | writeIcTar u v | writeIcSar u v | writeIcEnable u v | writePad n v | writeCtrl n v | writeGpioOut v
  | writeGpioOutSet v | writeGpioOutClr v | writeGpioOe v | writeGpioOeSet v | writeGpioOeClr v =>
    cases h; exact .inr ⟨_, _, rfl, rfl⟩
  | readIcCon x u | readIcTar x u | readIcSar x u | readIcDataCmd x u | readIcRawIntrStat x u | readIcClrRdReq x u
  | readIcClrTxAbrt x u | readIcEnable x u | readIcStatus x u | readIcTxAbrtSource x u | readIcEnableStatus x u
  | readPad x n | readCtrl x n | readGpioOut x | readGpioOe x => cases h; exact .inl ⟨_, _, rfl, rfl⟩
  | _ => cases h

/-! ## The decoder at a register's address -/

/-- The decoder's answer to a write at a register's address. -/
theorem decode_write_addr (r : Reg) (v : Word) :
    decode (.write r.addr 4 v) =
      if r.writable && r.admitsValue v then writeInstr r.addr v r else .error (.unadmitted r.addr) := by
  simp [decode, wordAligned_addr, regAt_addr]

theorem wordAligned_iff {a : Word} {width : Nat} : wordAligned a width = true ↔ width = 4 ∧ a &&& 3 = 0 := by
  simp [wordAligned]

/-- What the decoder reads is a row of one register, and the access is at that register's address. -/
theorem decode_ok {a : Access} {i : Instr} (h : decode a = .ok i) :
    (∃ x r, a = readAccess x r ∧ readInstr x r = some i) ∨
      ∃ r v, a = writeAccess r v ∧ r.admitsValue v = true ∧ writeInstr r.addr v r = .ok i := by
  cases a with
  | read x addr width =>
    simp only [decode] at h
    split at h
    · next ha =>
      obtain ⟨rfl, -⟩ := wordAligned_iff.1 ha
      split at h <;> cases h
      next hr =>
      obtain ⟨r, hat, hrow⟩ := Option.bind_eq_some_iff.1 hr
      obtain rfl := addr_of_regAt hat
      exact .inl ⟨x, r, rfl, hrow⟩
    · cases h
  | write addr width v =>
    simp only [decode] at h
    split at h
    · next ha =>
      obtain ⟨rfl, -⟩ := wordAligned_iff.1 ha
      split at h
      · next r hat =>
        obtain rfl := addr_of_regAt hat
        split at h
        · next hc => exact .inr ⟨r, v, rfl, (Bool.and_eq_true_iff.1 hc).2, h⟩
        · cases h
      · cases h
    · cases h

/-- Settles O2: a row is encoded at its register's address, and there the decoder finds the row again. -/
theorem decodeOfEncodeIsTheInstruction : Obligations.DecodeOfEncodeIsTheInstruction := by
  intro i a hwf h
  obtain ⟨x, r, rfl, hrow⟩ | ⟨r, v, rfl, hrow⟩ := encode_some h
  · rw [readAccess, decode_read_addr, hrow]
    rfl
  · rw [writeAccess, decode_write_addr, (encode_of_writeInstr hrow).1, ← wf_of_writeInstr hrow, hwf]
    exact hrow

/-- Settles O3: the address, the width and the value that the decoder has checked are those of the row it answers. -/
theorem encodeOfDecodeIsTheAccess : Obligations.EncodeOfDecodeIsTheAccess := by
  intro a i h
  obtain ⟨x, r, rfl, hrow⟩ | ⟨r, v, rfl, hv, hrow⟩ := decode_ok h
  · exact encode_of_readInstr hrow
  · exact ⟨(wf_of_writeInstr hrow).trans hv, (encode_of_writeInstr hrow).2⟩

/-- Settles O1: each access is decoded by the table. -/
theorem sampleAccessesDecode : Obligations.SampleAccessesDecode := by
  unfold Obligations.SampleAccessesDecode
  decide

/-! ## Refused accesses -/

theorem cpuStep_of_decode_error {s : State} {a : Access} {e : DecodeError} (hstmt : s.currentStmt = some (.access a))
    (h : decode a = .error e) : cpuStep s = rejectAccess e s := by
  simp only [cpuStep, fetchInstr, runOther, hstmt, h]

/-- An access of the wrong width or alignment (20_memory.md R83, R84). -/
theorem decode_of_not_aligned {x : Option Var} {addr v : Word} {width : Nat} (h : width ≠ 4 ∨ addr &&& 3 ≠ 0) :
    decode (.read x addr width) = .error (.access addr) ∧ decode (.write addr width v) = .error (.access addr) := by
  have ha : ¬ wordAligned addr width = true := fun hc => by
    obtain ⟨hw, hz⟩ := wordAligned_iff.1 hc
    exact h.elim (absurd hw) (absurd hz)
  exact ⟨if_neg ha, if_neg ha⟩

/-- An aligned access to no register (20_memory.md R86). -/
theorem decode_of_no_register {x : Option Var} {addr v : Word} (ha : addr &&& 3 = 0) (h : ∀ r : Reg, r.addr ≠ addr) :
    decode (.read x addr 4) = .error (.unadmitted addr) ∧ decode (.write addr 4 v) = .error (.unadmitted addr) := by
  have hal : wordAligned addr 4 = true := wordAligned_iff.2 ⟨rfl, ha⟩
  have hat : regAt addr = none := Option.eq_none_iff_forall_ne_some.2 fun r hr => h r (addr_of_regAt hr)
  simp [decode, hal, hat]

/-- A write of a value outside the register's pattern, or of a register that no row admits for W. -/
theorem decode_write_of_not_admitted {r : Reg} {v : Word} (h : r.writable = true → ¬ r.admitsValue v = true) :
    decode (.write r.addr 4 v) = .error (.unadmitted r.addr) := by
  rw [decode_write_addr, if_neg fun hc => h (Bool.and_eq_true_iff.1 hc).1 (Bool.and_eq_true_iff.1 hc).2]

/-- A value of IC_DATA_CMD that is no command form is refused by the checks of the port (log 26). -/
theorem decode_write_icDataCmd_of_noForm {u : UnitId} {v : Word} (hv : v >>> 12 = 0) (h : commandForm v = none) :
    decode (.write (Reg.icDataCmd u).addr 4 v) = .error (.noForm u v) := by
  have hadm : (Reg.icDataCmd u).admitsValue v = true := (admitsValue_icDataCmd u v).2 hv
  rw [decode_write_addr, hadm]
  simp [Reg.writable, writeInstr, commandInstr, h]

theorem commandForm_eq_none {v : Word} (htd : v >>> 8 ≠ 0) (hcw : v >>> 8 ≠ 2) (hcr : v >>> 8 ≠ 3) : commandForm v = none :=
  Option.eq_none_iff_forall_ne_some.2 fun f hf => by
    cases f with
    | cw => exact hcw (commandForm_cw.1 hf)
    | cr => exact hcr (commandForm_cr.1 hf)
    | td => exact htd (commandForm_td.1 hf)

theorem formAdmitted_none (r : Role) : formAdmitted r none = false := by cases r <;> rfl

/-- A statement that writes a value of IC_DATA_CMD takes the fault of the push. -/
theorem writeStmt_icDataCmd_of_error {u : UnitId} {v : Word} {s : State} {f : Fault} (hs : s.fault = .none) (hv : v >>> 12 = 0)
    (h : pushCommand u v s = .error f) : writeStmt (.icDataCmd u) v s = .next (s.setFault f) := by
  have hw : writeReg (.icDataCmd u) v s = .error f :=
    (writeReg_of_admitted rfl ((admitsValue_icDataCmd u v).2 hv) s).trans h
  rw [writeStmt, onWrite_error hw, raise_of_none hs]

theorem pushCommand_of_disabled {u : UnitId} {v : Word} {s : State} (h : (s.unit u).enabled = false) :
    pushCommand u v s = .error (.unitDisabled u) := if_pos h

theorem pushCommand_of_form {u : UnitId} {v : Word} {s : State} (hen : (s.unit u).enabled = true)
    (h : formAdmitted (s.unit u).role (commandForm v) = false) : pushCommand u v s = .error (.unadmittedCmd u v) := by
  simp [pushCommand, hen, h]

/-- Settles O4: each refused access is an error of the decoder, and `rejectAccess` makes it a fault entry, for a value without a
command form by the first two checks of the push. -/
theorem refusedAccessIsAFault : Obligations.RefusedAccessIsAFault := by
  intro s x addr v width hs
  refine ⟨fun hstmt => ⟨fun h => ?_, fun hw ha hr => ?_⟩, fun r hstmt hr => ?_, fun r hstmt hv => ?_,
    fun u hstmt hv htd hcw hcr => ?_⟩
  · obtain hstmt | hstmt := hstmt
    · exact (cpuStep_of_decode_error hstmt (decode_of_not_aligned (v := v) h).1).trans (raise_of_none hs _)
    · exact (cpuStep_of_decode_error hstmt (decode_of_not_aligned (x := x) h).2).trans (raise_of_none hs _)
  · subst hw
    obtain hstmt | hstmt := hstmt
    · exact (cpuStep_of_decode_error hstmt (decode_of_no_register (v := v) ha hr).1).trans (raise_of_none hs _)
    · exact (cpuStep_of_decode_error hstmt (decode_of_no_register (x := x) ha hr).2).trans (raise_of_none hs _)
  · have hread : readInstr x r = none := by obtain rfl | rfl | rfl | rfl := hr <;> rfl
    have hdec : decode (.read x r.addr 4) = .error (.unadmitted r.addr) := by rw [decode_read_addr, hread]; rfl
    exact (cpuStep_of_decode_error hstmt hdec).trans (raise_of_none hs _)
  · have hadm : r.writable = true → ¬ r.admitsValue v = true := by
      cases r <;> simp_all [Reg.writable]
    exact (cpuStep_of_decode_error hstmt (decode_write_of_not_admitted hadm)).trans (raise_of_none hs _)
  · have hform := commandForm_eq_none htd hcw hcr
    rw [cpuStep_of_decode_error hstmt (decode_write_icDataCmd_of_noForm hv hform)]
    refine ⟨fun hen => writeStmt_icDataCmd_of_error hs hv (pushCommand_of_disabled hen), fun hen => ?_⟩
    exact writeStmt_icDataCmd_of_error hs hv (pushCommand_of_form hen (by rw [hform, formAdmitted_none]))

end Machine
end Sys2Proof
end

section
/-! What one step can do, on the hardware and on the CPU side at once (`exec_next`, `runOther_acts`, `step_acts`), and the statements
about every step that follow from it: fault entry, the fixed program and board, the footprint of a joint step, the driver objects
and the frame of the driver operations. -/

namespace Sys2Proof
namespace Machine

/-! ## One access and its register -/

/-- `m` is `s` after at most one access, to a register of which `R` holds. -/
inductive AccessedIn (R : Reg → Prop) (s : State) : State → Prop where
  | none : AccessedIn R s s
  | read {r : Reg} {v : Word} {m : State} (hr : R r) (h : readReg r s = .ok (v, m)) : AccessedIn R s m
  | write {r : Reg} {v : Word} {m : State} (hr : R r) (h : writeReg r v s = .ok m) : AccessedIn R s m

theorem AccessedIn.accessed {R : Reg → Prop} {s m : State} (h : AccessedIn R s m) : Accessed s m := by
  cases h with
  | none => exact .none
  | read _ h => exact .read h
  | write _ h => exact .write h

theorem Accessed.sameCpu {s m : State} (h : Accessed s m) : SameCpu s m := by
  cases h with
  | none => exact .refl s
  | read h => exact readReg_sameCpu h
  | write h => exact writeReg_sameCpu h

/-- No access sets FAULT, passes the turn or moves PHASE. -/
theorem Accessed.fault {s m : State} (h : Accessed s m) :
    m.fault = s.fault ∧ m.turn = s.turn ∧ m.turnCount = s.turnCount ∧ m.phase = s.phase := by
  cases h with
  | none => exact ⟨rfl, rfl, rfl, rfl⟩
  | read h => exact readReg_fault h
  | write h => exact writeReg_fault h

theorem State.setUnit_unit (s : State) (u : UnitId) : s.setUnit u (s.unit u) = s := by
  simp [State.setUnit, State.unit]

/-- A read of a register of a unit changes at most that unit. -/
theorem readReg_window {r : Reg} {u : UnitId} (hr : r.window = .i2c u) {s m : State} {v : Word} (h : readReg r s = .ok (v, m)) :
    ∃ un k, m = (s.setUnit u un).drew k := by
  cases r with
  | icDataCmd w =>
    cases hr
    exact ⟨_, _, popData_ok h⟩
  | icClrRdReq w | icClrTxAbrt w => cases hr; cases h; exact ⟨_, _, rfl⟩
  | icRawIntrStat w | icStatus w | icTxAbrtSource w | icEnableStatus w =>
    cases hr; cases h; exact ⟨s.unit u, 1, by rw [State.setUnit_unit]⟩
  | icCon w | icTar w | icSar w | icEnable w => cases hr; cases h; exact ⟨s.unit u, 0, by rw [State.setUnit_unit]; rfl⟩
  | _ => cases hr

/-- A write of a register of a unit changes at most that unit. -/
theorem writeReg_window {r : Reg} {u : UnitId} (hr : r.window = .i2c u) {s m : State} {v : Word} (h : writeReg r v s = .ok m) :
    ∃ un k, m = (s.setUnit u un).drew k := by
  obtain rfl | ⟨w, -, ⟨rfl, rfl⟩ | ⟨rfl, rfl⟩ | ⟨rfl, rfl⟩⟩ | ⟨w, rfl, hst⟩ | ⟨w, rfl, -, -, hst⟩ | ⟨w, rfl, -, -, hst⟩ |
    ⟨n, rfl, -⟩ | ⟨n, rfl, -⟩ | ⟨o, -, ⟨rfl, -⟩ | ⟨rfl, -⟩ | ⟨rfl, -⟩⟩ | ⟨o, -, ⟨rfl, -⟩ | ⟨rfl, -⟩ | ⟨rfl, -⟩⟩ :=
    storeReg_cases (writeReg_ok h).2.2
  case inl => exact ⟨m.unit u, 0, by rw [State.setUnit_unit]; rfl⟩
  case inr.inr.inl => cases hr; obtain ⟨rfl, -⟩ := pushCommand_ok hst; exact ⟨_, 0, rfl⟩
  case inr.inr.inr.inl => cases hr; obtain ⟨rfl, -⟩ := enableUnit_ok hst; exact ⟨_, 0, rfl⟩
  case inr.inr.inr.inr.inl => cases hr; obtain ⟨⟨_, _, _, rfl⟩, -⟩ := disableUnit_ok hst; exact ⟨_, _, rfl⟩
  all_goals cases hr
  all_goals exact ⟨_, 0, rfl⟩

/-- Accesses to a unit's registers change at most that unit. -/
theorem AccessedIn.window {u : UnitId} {s m : State} (h : AccessedIn (·.window = .i2c u) s m) :
    ∃ un k, m = (s.setUnit u un).drew k := by
  cases h with
  | none => exact ⟨s.unit u, 0, by rw [State.setUnit_unit]; rfl⟩
  | read hr h => exact readReg_window hr h
  | write hr h => exact writeReg_window hr h

/-! ## The CPU side of one instruction -/

/-- The variable of `x := …` (30_encoding.md R141). -/
def resultVar : Instr → Option Var
  | .readIcCon x _ | .readIcTar x _ | .readIcSar x _ | .readIcDataCmd x _ | .readIcRawIntrStat x _ | .readIcClrRdReq x _
  | .readIcClrTxAbrt x _ | .readIcEnable x _ | .readIcStatus x _ | .readIcTxAbrtSource x _ | .readIcEnableStatus x _ => x
  | .readPad x _ | .readCtrl x _ | .readGpioOut x | .readGpioOe x | .read x _ => x
  | .write _ _ x | .modify _ _ x | .configureDigitalOutputPin _ x | .configureSignalPin _ _ x | .waitForCondition _ _ _ x => x
  | .configureAsController _ x | .writeByte x _ | .requestByteFromMemory x | .receiveRequestedBytesFromMemory x => x
  | .configureAsTarget _ x | .receiveBytesToMemory x | .serveBytesFromMemory x => x
  | _ => none

/-- The unit of a driver operation (43_i2c_controller.md R210; 44_i2c_target.md R240). -/
def driverUnit (b : Board) : Instr → Option UnitId
  | .configureAsController _ _ | .writeByte _ _ | .requestByteFromMemory _ | .receiveRequestedBytesFromMemory _ => some b.ctrlUnit
  | .configureAsTarget _ _ | .receiveBytesToMemory _ | .serveBytesFromMemory _ => some b.tgtUnit
  | _ => none

/-- The registers that an instruction may access: a driver operation only those of its unit. -/
def MayAccess (b : Board) (i : Instr) (r : Reg) : Prop := ∀ u, driverUnit b i = some u → r.window = .i2c u

/-- How an instruction leaves the CPU side, after its access. -/
inductive CpuUpdate (i : Instr) (m : State) : State → Prop where
  | same : CpuUpdate i m m
  | advance : CpuUpdate i m m.advance
  | latch (v : Word) : CpuUpdate i m (m.setLatch v).advance
  | ret (v : Val) : CpuUpdate i m (m.ret (resultVar i) v)
  | retNone : CpuUpdate i m (m.retNone (resultVar i))
  | request (h : ∃ x, i = .requestByteFromMemory x) : CpuUpdate i m (m.setRequested.retNone (resultVar i))
  | receive (d : Byte) (h : ∃ x, i = .receiveBytesToMemory x) : CpuUpdate i m ((m.setMemoryValue d).retNone (resultVar i))
  | configure (a : BusAddr) (h : ∃ x e, i = .configureAsTarget e x) : CpuUpdate i m (m.setTargetAddress a).advance

section CpuUpdate

variable {i : Instr} {m t : State}

theorem CpuUpdate.sameHardware (h : CpuUpdate i m t) : SameHardware m t := by
  cases h with
  | same => exact .refl m
  | advance => exact sameHardware_advance m
  | ret v => exact sameHardware_ret m _ v
  | retNone => exact sameHardware_retNone m _
  | latch v | request h | receive d h | configure a h => constructor <;> simp

theorem State.lookupVar_assign {s : State} {x : Option Var} {y : Var} (h : x ≠ some y) (v : Val) :
    lookupVar y (s.assign x v).vars = lookupVar y s.vars := by
  cases x with
  | none => rfl
  | some x => exact lookupVar_assignVar_of_ne (fun e => h (by rw [e])) v s.vars

theorem State.assign_varsWf (s : State) (x : Option Var) (v : Val) (h : VarsWf s.vars) : VarsWf (s.assign x v).vars := by
  cases x with
  | none => exact h
  | some x => exact assignVar_wf x v h

/-- An instruction writes no variable but its own. -/
theorem CpuUpdate.lookupVar_eq (h : CpuUpdate i m t) {y : Var} (hy : resultVar i ≠ some y) :
    lookupVar y t.vars = lookupVar y m.vars := by
  cases h with
  | ret v => rw [State.ret_vars, State.lookupVar_assign hy]
  | retNone => rw [State.retNone_vars, State.lookupVar_noResult hy]
  | request h | receive d h => rw [State.retNone_vars, State.lookupVar_noResult hy]; rfl
  | same | advance | latch v | configure a h => rfl

theorem CpuUpdate.varsWf (h : CpuUpdate i m t) (hm : VarsWf m.vars) : VarsWf t.vars := by
  cases h with
  | ret v => rw [State.ret_vars]; exact State.assign_varsWf m _ v hm
  | retNone | request h | receive d h => rw [State.retNone_vars]; exact State.noResult_varsWf _ _ hm
  | same | advance | latch v | configure a h => exact hm

theorem CpuUpdate.requested (h : CpuUpdate i m t) :
    t.requested = m.requested ∨ t.requested = true ∧ ∃ x, i = .requestByteFromMemory x := by
  cases h with
  | request h => exact .inr ⟨by simp, h⟩
  | same | advance | latch v | ret v | retNone | receive d h | configure a h => left; simp

theorem CpuUpdate.memoryValue (h : CpuUpdate i m t) : t.memoryValue = m.memoryValue ∨ ∃ x, i = .receiveBytesToMemory x := by
  cases h with
  | receive d h => exact .inr h
  | same | advance | latch v | ret v | retNone | request h | configure a h => left; simp

theorem CpuUpdate.targetAddress (h : CpuUpdate i m t) :
    t.targetAddress = m.targetAddress ∨ ∃ x e, i = .configureAsTarget e x := by
  cases h with
  | configure a h => exact .inr h
  | same | advance | latch v | ret v | retNone | request h | receive d h => left; simp

end CpuUpdate

/-! ## One CPU step of an instruction -/

/-- The outcome `o` of instruction `i` from `s`, if it is a next state, is a fault entry, or at most one access that `R` allows and
an update of the CPU side. -/
def Runs (R : Reg → Prop) (i : Instr) (s : State) (o : Outcome) : Prop :=
  ∀ t, o = .next t → Raises s (.next t) ∨ ∃ m, AccessedIn R s m ∧ CpuUpdate i m t

section Runs

variable {R : Reg → Prop} {i : Instr} {s : State}

theorem runs_raise (f : Fault) : Runs R i s (raise f s) := fun _ h => .inl ⟨f, h.symm⟩

theorem runs_refused (r : Refusal) : Runs R i s (.refused r) := fun _ h => by cases h

theorem runs_next {t : State} (h : CpuUpdate i s t) : Runs R i s (.next t) := fun t' ht => by
  cases ht
  exact .inr ⟨s, .none, h⟩

theorem runs_withOperand {α : Type} {v : Except EvalError α} {k : α → Outcome} (hk : ∀ a, Runs R i s (k a)) :
    Runs R i s (withOperand s v k) := fun t h => by
  obtain h | ⟨a, -, h⟩ := withOperand_next h
  · exact .inl h
  · exact hk a t h

theorem runs_onRead {r : Reg} {k : Word → State → Outcome} (hr : R r) (hk : ∀ v m t, k v m = .next t → CpuUpdate i m t) :
    Runs R i s (onRead r s k) := fun t h => by
  obtain h | ⟨v, m, hm, h⟩ := onRead_next h
  · exact .inl h
  · exact .inr ⟨m, .read hr hm, hk v m t h⟩

theorem runs_onWrite {r : Reg} {v : Word} {k : State → State} (hr : R r) (hk : ∀ m, CpuUpdate i m (k m)) :
    Runs R i s (onWrite r v s k) := fun t h => by
  obtain h | ⟨m, hm, rfl⟩ := onWrite_next h
  · exact .inl h
  · exact .inr ⟨m, .write hr hm, hk m⟩

theorem runs_modifyRead {r : Reg} (hr : R r) : Runs R i s (modifyRead r s) :=
  runs_onRead hr fun v m t h => by cases h; exact .latch v

theorem runs_poll {r : Reg} {mask value : Word} {k : State → State} (hr : R r) (hk : ∀ m, CpuUpdate i m (k m)) :
    Runs R i s (poll r mask value s k) :=
  runs_onRead hr fun v m t h => by
    split at h <;> cases h
    · exact hk m
    · exact .same

theorem runs_withPin {w : Word} {k : Pin → Outcome} (hk : ∀ p, Runs R i s (k p)) : Runs R i s (withPin w s k) := by
  unfold withPin
  split
  · exact hk _
  · exact runs_raise _

theorem runs_withBusAddress {a : Word} {k : Outcome} (hk : Runs R i s k) : Runs R i s (withBusAddress a s k) := by
  unfold withBusAddress
  split
  · exact hk
  · exact runs_raise _

end Runs

/-! ## The instructions -/

section Instructions

variable {s : State} {x : Option Var}

theorem mayAccess_of_none {b : Board} {i : Instr} (h : driverUnit b i = none) (r : Reg) : MayAccess b i r := fun u hu => by
  rw [h] at hu
  cases hu

theorem mayAccess_of_window {b : Board} {i : Instr} {u : UnitId} {r : Reg} (h : driverUnit b i = some u)
    (hr : r.window = .i2c u) : MayAccess b i r := fun w hw => by
  rw [h] at hw
  cases hw
  exact hr

theorem runs_execWrite (r : Reg) (arg : WriteArg) :
    Runs (MayAccess s.board (.write r arg x)) (.write r arg x) s (execWrite r arg s x) := by
  have hacc := mayAccess_of_none (b := s.board) (i := .write r arg x) rfl r
  cases arg with
  | value e => exact runs_withOperand fun v => runs_onWrite hacc fun m => .retNone
  | fields fs =>
    simp only [execWrite]
    split
    · exact runs_raise _
    split
    · exact runs_refused _
    · exact runs_withOperand fun ws => runs_onWrite hacc fun m => .retNone

theorem runs_execModify (r : Reg) (fs : List (Field × Expr)) :
    Runs (MayAccess s.board (.modify r fs x)) (.modify r fs x) s (execModify r fs s x) := by
  have hacc := mayAccess_of_none (b := s.board) (i := .modify r fs x) rfl r
  unfold execModify
  split
  · exact runs_raise _
  split
  · exact runs_refused _
  refine runs_withOperand fun ws => ?_
  split
  · exact runs_modifyRead hacc
  · exact runs_onWrite hacc fun m => .retNone

theorem runs_execWaitForCondition (r : Reg) (em ev : Expr) :
    Runs (MayAccess s.board (.waitForCondition r em ev x)) (.waitForCondition r em ev x) s
      (execWaitForCondition r em ev s x) := by
  unfold execWaitForCondition
  split
  · exact runs_raise _
  · exact runs_withOperand fun m => runs_withOperand fun v => runs_poll (mayAccess_of_none rfl r) fun m => .retNone

theorem runs_execConfigureDigitalOutputPin (n : Expr) :
    Runs (MayAccess s.board (.configureDigitalOutputPin n x)) (.configureDigitalOutputPin n x) s
      (execConfigureDigitalOutputPin n s x) := by
  have hacc := mayAccess_of_none (b := s.board) (i := .configureDigitalOutputPin n x) rfl
  refine runs_withOperand fun w => runs_withPin fun p => ?_
  unfold digitalOutputStep
  split
  · exact runs_modifyRead (hacc _)
  · exact runs_onWrite (hacc _) fun m => .advance
  · exact runs_onWrite (hacc _) fun m => .advance
  · exact runs_modifyRead (hacc _)
  · exact runs_onWrite (hacc _) fun m => .advance
  · exact runs_onWrite (hacc _) fun m => .retNone

theorem runs_execConfigureSignalPin (n up : Expr) :
    Runs (MayAccess s.board (.configureSignalPin n up x)) (.configureSignalPin n up x) s
      (execConfigureSignalPin n up s x) := by
  have hacc := mayAccess_of_none (b := s.board) (i := .configureSignalPin n up x) rfl
  refine runs_withOperand fun w => runs_withOperand fun b => runs_withPin fun p => ?_
  unfold signalPinStep
  split
  · exact runs_modifyRead (hacc _)
  · exact runs_onWrite (hacc _) fun m => .advance
  · exact runs_onWrite (hacc _) fun m => .advance
  · exact runs_modifyRead (hacc _)
  · exact runs_onWrite (hacc _) fun m => .retNone

theorem runs_execConfigureAsController (a : Expr) :
    Runs (MayAccess s.board (.configureAsController a x)) (.configureAsController a x) s
      (execConfigureAsController a s x) := by
  have hacc {r : Reg} := mayAccess_of_window (b := s.board) (i := .configureAsController a x) (r := r) rfl
  refine runs_withOperand fun w => runs_withBusAddress ?_
  unfold controllerConfigStep
  split
  · exact runs_modifyRead (hacc rfl)
  · exact runs_onWrite (hacc rfl) fun m => .advance
  · exact runs_modifyRead (hacc rfl)
  · exact runs_onWrite (hacc rfl) fun m => .advance
  · exact runs_onWrite (hacc rfl) fun m => .advance
  · exact runs_modifyRead (hacc rfl)
  · exact runs_onWrite (hacc rfl) fun m => .retNone

theorem runs_execConfigureAsTarget (a : Expr) :
    Runs (MayAccess s.board (.configureAsTarget a x)) (.configureAsTarget a x) s (execConfigureAsTarget a s x) := by
  have hacc {r : Reg} := mayAccess_of_window (b := s.board) (i := .configureAsTarget a x) (r := r) rfl
  refine runs_withOperand fun w => runs_withBusAddress ?_
  unfold targetConfigStep
  split
  · exact runs_modifyRead (hacc rfl)
  · exact runs_onWrite (hacc rfl) fun m => .advance
  · exact runs_modifyRead (hacc rfl)
  · exact runs_onWrite (hacc rfl) fun m => .advance
  · exact runs_onWrite (hacc rfl) fun m => .configure _ ⟨x, a, rfl⟩
  · exact runs_modifyRead (hacc rfl)
  · exact runs_onWrite (hacc rfl) fun m => .retNone

theorem runs_execWriteByte (e : Expr) :
    Runs (MayAccess s.board (.writeByte x e)) (.writeByte x e) s (execWriteByte x e s) := by
  have hacc {r : Reg} := mayAccess_of_window (b := s.board) (i := .writeByte x e) (r := r) rfl
  refine runs_withOperand fun b => ?_
  split
  · exact runs_poll (hacc rfl) fun m => .advance
  · exact runs_onWrite (hacc rfl) fun m => .advance
  · refine runs_onRead (hacc rfl) fun v m t h => ?_
    split at h <;> cases h
    · exact .ret _
    · exact .advance
  · exact runs_onRead (hacc rfl) fun v m t h => by cases h; exact .advance
  · exact runs_onRead (hacc rfl) fun v m t h => by cases h; exact .ret _

theorem runs_execRequestByteFromMemory :
    Runs (MayAccess s.board (.requestByteFromMemory x)) (.requestByteFromMemory x) s (execRequestByteFromMemory s x) := by
  have hacc {r : Reg} := mayAccess_of_window (b := s.board) (i := .requestByteFromMemory x) (r := r) rfl
  unfold execRequestByteFromMemory
  split
  · exact runs_poll (hacc rfl) fun m => .advance
  · exact runs_onWrite (hacc rfl) fun m => .request ⟨x, rfl⟩

theorem runs_execReceiveRequestedBytesFromMemory :
    Runs (MayAccess s.board (.receiveRequestedBytesFromMemory x)) (.receiveRequestedBytesFromMemory x) s
      (execReceiveRequestedBytesFromMemory x s) := by
  have hacc {r : Reg} := mayAccess_of_window (b := s.board) (i := .receiveRequestedBytesFromMemory x) (r := r) rfl
  unfold execReceiveRequestedBytesFromMemory
  split
  · split
    · exact runs_next (.ret _)
    · exact runs_next .advance
  · exact runs_poll (hacc rfl) fun m => .advance
  · exact runs_onRead (hacc rfl) fun v m t h => by cases h; exact .ret _

theorem runs_execReceiveBytesToMemory :
    Runs (MayAccess s.board (.receiveBytesToMemory x)) (.receiveBytesToMemory x) s (execReceiveBytesToMemory s x) := by
  have hacc {r : Reg} := mayAccess_of_window (b := s.board) (i := .receiveBytesToMemory x) (r := r) rfl
  unfold execReceiveBytesToMemory
  split
  · exact runs_poll (hacc rfl) fun m => .advance
  · exact runs_onRead (hacc rfl) fun v m t h => by cases h; exact .receive _ ⟨x, rfl⟩

theorem runs_execServeBytesFromMemory :
    Runs (MayAccess s.board (.serveBytesFromMemory x)) (.serveBytesFromMemory x) s (execServeBytesFromMemory s x) := by
  have hacc {r : Reg} := mayAccess_of_window (b := s.board) (i := .serveBytesFromMemory x) (r := r) rfl
  unfold execServeBytesFromMemory
  split
  · exact runs_poll (hacc rfl) fun m => .advance
  · exact runs_onRead (hacc rfl) fun v m t h => by cases h; exact .advance
  · exact runs_onWrite (hacc rfl) fun m => .retNone

end Instructions

/-- A row is no driver operation; one that reads returns to its variable, one that writes has none. -/
theorem driverUnit_of_encode {i : Instr} {a : Access} (h : encode i = some a) (b : Board) : driverUnit b i = none := by
  cases i with
  | configureAsController _ _ | writeByte _ _ | requestByteFromMemory _ | receiveRequestedBytesFromMemory _
  | configureAsTarget _ _ | receiveBytesToMemory _ | serveBytesFromMemory _ => cases h
  | _ => rfl

theorem resultVar_of_readInstr {x : Option Var} {r : Reg} {i : Instr} (h : readInstr x r = some i) : resultVar i = x := by
  cases r <;> cases h <;> rfl

theorem exec_of_writeInstr {r : Reg} {a v : Word} {i : Instr} (h : writeInstr a v r = .ok i) (s : State) :
    exec i s = writeStmt r v s ∧ resultVar i = none := by
  cases r with
  | icDataCmd u =>
    have hi := writeInstr_icDataCmd.1 h
    unfold commandInstr at hi
    split at hi
    case h_4 => cases hi
    all_goals
      next hf =>
      cases hi
      refine ⟨?_, rfl⟩
      rw [commandByte_eq]
      exact congrArg (writeStmt (.icDataCmd u) · s) (commandWord_truncate hf)
  | _ => cases h <;> exact ⟨rfl, rfl⟩

/-- Everything an instruction can do. -/
theorem exec_next (i : Instr) (s : State) : Runs (MayAccess s.board i) i s (exec i s) := by
  cases hrow : encode i with
  | some a =>
    have hacc := mayAccess_of_none (driverUnit_of_encode hrow s.board)
    obtain ⟨x, r, -, hi⟩ | ⟨r, v, -, hi⟩ := encode_some hrow
    · rw [exec_readInstr hi]
      exact runs_onRead (hacc r) fun v m t h => by cases h; exact resultVar_of_readInstr hi ▸ .ret _
    · obtain ⟨hexec, hvar⟩ := exec_of_writeInstr hi s
      rw [hexec]
      exact runs_onWrite (hacc r) fun m => by have := CpuUpdate.retNone (i := i) (m := m); rwa [hvar] at this
  | none =>
    cases i with
    | read x r =>
      exact runs_onRead (mayAccess_of_none rfl r) fun v m t h => by cases h; exact .ret _
    | write r arg x => exact runs_execWrite r arg
    | modify r fs x => exact runs_execModify r fs
    | configureDigitalOutputPin n x => exact runs_execConfigureDigitalOutputPin n
    | configureSignalPin n up x => exact runs_execConfigureSignalPin n up
    | waitForCondition r em ev x => exact runs_execWaitForCondition r em ev
    | configureAsController a x => exact runs_execConfigureAsController a
    | writeByte x e => exact runs_execWriteByte e
    | requestByteFromMemory x => exact runs_execRequestByteFromMemory
    | receiveRequestedBytesFromMemory x => exact runs_execReceiveRequestedBytesFromMemory
    | configureAsTarget a x => exact runs_execConfigureAsTarget a
    | receiveBytesToMemory x => exact runs_execReceiveBytesToMemory
    | serveBytesFromMemory x => exact runs_execServeBytesFromMemory
    | _ => cases hrow

end Machine
end Sys2Proof
end

section
/-! What one step of the machine can do (`step_acts`), and the statements about every step that follow from it: fault entry, the
fixed program and board, the footprint of a joint step, the driver objects and the frame of the driver operations. -/

namespace Sys2Proof
namespace Machine

/-! ## The statements that hold no instruction (30_encoding.md R142) -/

/-- How such a statement leaves the CPU side. -/
inductive StmtUpdate (m : State) : State → Prop where
  | same : StmtUpdate m m
  | finish : StmtUpdate m m.finish
  | jump (k : Nat) : StmtUpdate m (m.jump k)
  | assign (x : Var) (v : Val) : StmtUpdate m (m.ret (some x) v)

theorem StmtUpdate.sameHardware {m t : State} (h : StmtUpdate m t) : SameHardware m t := by
  cases h with
  | same => exact .refl m
  | finish => exact sameHardware_finish m
  | jump k => exact sameHardware_jump m k
  | assign x v => exact sameHardware_ret m _ v

theorem StmtUpdate.varsWf {m t : State} (h : StmtUpdate m t) (hm : VarsWf m.vars) : VarsWf t.vars := by
  cases h with
  | assign x v => exact assignVar_wf x v hm
  | same | finish | jump k => exact hm

theorem StmtUpdate.driverObjects {m t : State} (h : StmtUpdate m t) :
    t.requested = m.requested ∧ t.memoryValue = m.memoryValue ∧ t.targetAddress = m.targetAddress := by
  cases h <;> exact ⟨rfl, rfl, rfl⟩

/-- A step at such a statement is a fault entry, or at most one access (log 26) and an update of the CPU side. -/
theorem runOther_acts {s t : State} (h : runOther s = .next t) :
    Raises s (.next t) ∨ ∃ m, Accessed s m ∧ StmtUpdate m t := by
  have hjump {l : Label} (h : jumpTo l s = .next t) : ∃ m, Accessed s m ∧ StmtUpdate m t := by
    unfold jumpTo at h
    split at h <;> cases h
    exact ⟨s, .none, .jump _⟩
  unfold runOther at h
  split at h
  · split at h
    · cases h; exact .inr ⟨s, .none, .same⟩
    next e _ =>
    cases e with
    | access a => exact .inl ⟨_, h.symm⟩
    | unadmitted a => exact .inl ⟨_, h.symm⟩
    | noForm u v =>
      obtain h | ⟨m, hm, rfl⟩ := onWrite_next h
      · exact .inl h
      · exact .inr ⟨m, .write hm, .finish⟩
  · unfold runAssign at h
    split at h
    · cases h; exact .inr ⟨s, .none, .assign _ _⟩
    · exact .inl (evalFailed_next h)
  · obtain h | ⟨b, -, h⟩ := withOperand_next h
    · exact .inl h
    · split at h
      · exact .inr (hjump h)
      · cases h; exact .inr ⟨s, .none, .finish⟩
  · exact .inr (hjump h)
  all_goals cases h; exact .inr ⟨s, .none, .same⟩

/-! ## One step -/

/-- What a turn does to a machine that has not stopped, before the turn passes. -/
inductive Acts (s : State) : State → Prop where
  | fault (f : Fault) : Acts s (s.setFault f)
  | instr {i : Instr} {m t : State} (hturn : s.turn = .cpu) (hi : fetchInstr s = some i)
      (hm : AccessedIn (MayAccess s.board i) s m) (ht : CpuUpdate i m t) : Acts s t
  | stmt {m t : State} (hm : Accessed s m) (ht : StmtUpdate m t) : Acts s t
  | idle : Acts s s
  | bus {b : BusStep} {t : State} (hen : s.busEnabled b = true) (h : busEffect b s = .ok t) : Acts s t

theorem Raises.acts {s t : State} (hs : s.fault = .none) (h : Raises s (.next t)) : Acts s t := by
  obtain ⟨f, hf⟩ := h
  rw [raise_of_none hs] at hf
  cases hf
  exact .fault f

/-- Everything a step can do. -/
theorem step_acts {s t : State} (h : step s = .next t) : s.fault = .none ∧ ∃ m, Acts s m ∧ t = passTurn m := by
  obtain ⟨hs, m, hm, rfl⟩ := step_next h
  refine ⟨hs, m, ?_, rfl⟩
  unfold act at hm
  split at hm
  · next hturn =>
    unfold cpuStep at hm
    split at hm
    · next i hi =>
      obtain h | ⟨m', ha, hu⟩ := exec_next i s m hm
      · exact h.acts hs
      · exact .instr hturn hi ha hu
    · obtain h | ⟨m', ha, hu⟩ := runOther_acts hm
      · exact h.acts hs
      · exact .stmt ha hu
  · obtain rfl | h | ⟨hen, h⟩ := busTurn_next hm
    · exact .idle
    · exact h.acts hs
    · exact .bus hen h

/-! ## What a joint step leaves alone (45_i2c_bus_engine.md R281) -/

theorem busEffect_sameCpu {b : BusStep} {s t : State} (hen : s.busEnabled b = true) (h : busEffect b s = .ok t) :
    SameCpu s t := by
  obtain ⟨c, -, -, ⟨e, rest, -, -, -, rfl⟩ | ⟨-, -, rfl⟩⟩ | ⟨c, -, -, rfl⟩ | ⟨c, e, rest, -, -, -, -, rfl⟩ | ⟨c, -, -, rfl⟩ :=
    busEffect_cases hen h <;> exact ⟨rfl, rfl, rfl, rfl, rfl, rfl, rfl, rfl⟩

/-- The pins, the outputs, FAULT and the turn. -/
structure SamePins (s t : State) : Prop where
  pads : t.pads = s.pads
  ctrls : t.ctrls = s.ctrls
  sioOut : t.sioOut = s.sioOut
  sioOe : t.sioOe = s.sioOe
  fault : t.fault = s.fault

theorem busEffect_samePins {b : BusStep} {s t : State} (hen : s.busEnabled b = true) (h : busEffect b s = .ok t) :
    SamePins s t := by
  obtain ⟨c, -, -, ⟨e, rest, -, -, -, rfl⟩ | ⟨-, -, rfl⟩⟩ | ⟨c, -, -, rfl⟩ | ⟨c, e, rest, -, -, -, -, rfl⟩ | ⟨c, -, -, rfl⟩ :=
    busEffect_cases hen h <;> exact ⟨rfl, rfl, rfl, rfl, rfl⟩

/-- What a joint step may do to a unit: append received bytes and take commands from the head or flush them. -/
structure BusUnit (un un' : UnitState) : Prop where
  icCon : un'.icCon = un.icCon
  icTar : un'.icTar = un.icTar
  icSar : un'.icSar = un.icSar
  icEnable : un'.icEnable = un.icEnable
  role : un'.role = un.role
  rxf : un.rxf <+: un'.rxf
  txf : un'.txf <:+ un.txf

theorem BusUnit.refl (un : UnitState) : BusUnit un un :=
  ⟨rfl, rfl, rfl, rfl, rfl, ⟨[], List.append_nil _⟩, List.suffix_rfl⟩

theorem busUnit_popTx (un : UnitState) : BusUnit un un.popTx :=
  ⟨rfl, rfl, rfl, rfl, rfl, ⟨[], List.append_nil _⟩, List.tail_suffix _⟩

theorem busUnit_pushRx (un : UnitState) (b : Byte) : BusUnit un (un.pushRx b) :=
  ⟨rfl, rfl, rfl, rfl, rfl, ⟨[b], rfl⟩, List.suffix_rfl⟩

theorem busUnit_rdReq (un : UnitState) : BusUnit un { un with rdReq := true } :=
  ⟨rfl, rfl, rfl, rfl, rfl, ⟨[], List.append_nil _⟩, List.suffix_rfl⟩

theorem busUnit_abort (un : UnitState) (reason : Word) : BusUnit un { un with txAbrt := true, abrtSrc := reason, txf := [] } :=
  ⟨rfl, rfl, rfl, rfl, rfl, ⟨[], List.append_nil _⟩, List.nil_suffix⟩

theorem busUnit_setUnit {s : State} {c : UnitId} {un : UnitState} (h : BusUnit (s.unit c) un) (u : UnitId) :
    BusUnit (s.unit u) ((s.setUnit c un).unit u) := by
  obtain ⟨rfl, hun⟩ | hun := unit_setUnit_cases s u c un
  · rw [hun]; exact h
  · rw [hun]; exact .refl _

/-- A joint step between two units acts on each by its own rule. -/
theorem busUnit_setUnit_setUnit {s : State} {c d : UnitId} {un un' : UnitState} (hne : d ≠ c) (h : BusUnit (s.unit c) un)
    (h' : BusUnit (s.unit d) un') (u : UnitId) : BusUnit (s.unit u) (((s.setUnit c un).setUnit d un').unit u) := by
  obtain ⟨rfl, hun⟩ | hun := unit_setUnit_cases (s.setUnit c un) u d un'
  · rw [hun]; exact h'
  · rw [hun]; exact busUnit_setUnit h u

theorem busEffect_busUnit {b : BusStep} {s t : State} (hen : s.busEnabled b = true) (h : busEffect b s = .ok t) (u : UnitId) :
    BusUnit (s.unit u) (t.unit u) := by
  obtain ⟨c, -, -, ⟨e, rest, -, -, -, rfl⟩ | ⟨-, -, rfl⟩⟩ | ⟨c, -, -, rfl⟩ | ⟨c, e, rest, -, -, -, -, rfl⟩ | ⟨c, -, -, rfl⟩ :=
    busEffect_cases hen h
  · exact busUnit_setUnit_setUnit (otherUnit_ne c) (busUnit_popTx _) (busUnit_pushRx _ _) u
  · exact busUnit_setUnit_setUnit (otherUnit_ne c) (busUnit_popTx _) (busUnit_rdReq _) u
  · exact busUnit_setUnit (busUnit_abort _ _) u
  · exact busUnit_setUnit_setUnit (otherUnit_ne c).symm (busUnit_popTx _) (busUnit_pushRx _ _) u
  · exact busUnit_setUnit (busUnit_abort _ _) u

/-- A turn of the bus agent, a fault entry among them, leaves the CPU side and the pins alone. -/
theorem busTurn_frame {b : BusStep} {s t : State} (h : busTurn b s = .next t) :
    SameCpu s t ∧ t.pads = s.pads ∧ t.ctrls = s.ctrls ∧ t.sioOut = s.sioOut ∧ t.sioOe = s.sioOe ∧
      ∀ u, BusUnit (s.unit u) (t.unit u) := by
  obtain rfl | ⟨f, hf⟩ | ⟨hen, h⟩ := busTurn_next h
  · exact ⟨.refl t, rfl, rfl, rfl, rfl, fun u => .refl _⟩
  · obtain rfl | rfl := raise_next hf.symm <;> exact ⟨⟨rfl, rfl, rfl, rfl, rfl, rfl, rfl, rfl⟩, rfl, rfl, rfl, rfl, fun u => .refl _⟩
  · obtain ⟨hpads, hctrls, hout, hoe, -⟩ := busEffect_samePins hen h
    exact ⟨busEffect_sameCpu hen h, hpads, hctrls, hout, hoe, busEffect_busUnit hen h⟩

theorem pad_of_pads {s t : State} (h : t.pads = s.pads) (n : Pin) : t.pad n = s.pad n := by rw [State.pad, State.pad, h]
theorem ctrl_of_ctrls {s t : State} (h : t.ctrls = s.ctrls) (n : Pin) : t.ctrl n = s.ctrl n := by rw [State.ctrl, State.ctrl, h]

/-- Settles O14: a pin's role is read from registers that no joint step writes, and each unit changes as `BusUnit` says. -/
theorem jointStepFootprint : Obligations.JointStepFootprint := by
  intro s t b h
  obtain ⟨hcpu, hpads, hctrls, hout, hoe, hunit⟩ := busTurn_frame h
  refine ⟨hcpu, fun n => ?_, hout, hoe, fun u => ?_⟩
  · have hp := pad_of_pads hpads n
    have hc := ctrl_of_ctrls hctrls n
    exact ⟨hp, hc, pinRole_congr hp hc hoe⟩
  · obtain ⟨hcon, htar, hsar, hen, hrole, hrx, htx⟩ := hunit u
    exact ⟨hcon, htar, hsar, hen, hrole, hrx, htx⟩

/-! ## The CPU's own state and the parameters -/

/-- Settles O13: an access leaves the CPU side alone, an update of the CPU side writes neither, and so does a joint step. -/
theorem programAndBoardAreFixed : Obligations.ProgramAndBoardAreFixed := by
  intro s t h
  obtain ⟨-, m, hm, rfl⟩ := step_acts h
  cases hm with
  | fault f => exact ⟨rfl, rfl⟩
  | instr _ _ ha hu =>
    exact ⟨hu.sameHardware.program.trans ha.accessed.sameCpu.program, hu.sameHardware.board.trans ha.accessed.sameCpu.board⟩
  | stmt ha hu => exact ⟨hu.sameHardware.program.trans ha.sameCpu.program, hu.sameHardware.board.trans ha.sameCpu.board⟩
  | idle => exact ⟨rfl, rfl⟩
  | bus hen hb => exact ⟨(busEffect_sameCpu hen hb).program, (busEffect_sameCpu hen hb).board⟩

/-- Settles O15: the one access of an instruction moves none of these (`Accessed.fault`, `Accessed.sameCpu`), nor does its update of
the CPU side. -/
theorem instructionsLeaveTheBusStateAlone : Obligations.InstructionsLeaveTheBusStateAlone := by
  intro i s t h
  obtain ⟨f, hf⟩ | ⟨m, ha, hu⟩ := exec_next i s t h
  · obtain rfl | rfl := raise_next hf.symm <;> exact ⟨rfl, rfl, rfl, rfl, rfl⟩
  · obtain ⟨-, hturn, hcount, hphase⟩ := ha.accessed.fault
    have hcpu := ha.accessed.sameCpu
    have hhw := hu.sameHardware
    exact ⟨hhw.phase.trans hphase, hhw.program.trans hcpu.program, hhw.board.trans hcpu.board, hhw.turn.trans hturn,
      hhw.turnCount.trans hcount⟩

/-- Settles O16: of all that a step can do only `CpuUpdate.request` writes `requested`. -/
theorem requestedIsSetOnlyByARequest : Obligations.RequestedIsSetOnlyByARequest := by
  intro s t h hne
  obtain ⟨-, m, hm, rfl⟩ := step_acts h
  cases hm with
  | fault f => exact absurd rfl hne
  | instr hturn hi ha hu =>
    obtain heq | ⟨htrue, x, rfl⟩ := hu.requested
    · exact absurd (heq.trans ha.accessed.sameCpu.requested) hne
    · exact ⟨htrue, hturn, x, hi⟩
  | stmt ha hu => exact absurd (hu.driverObjects.1.trans ha.sameCpu.requested) hne
  | idle => exact absurd rfl hne
  | bus hen hb => exact absurd (busEffect_sameCpu hen hb).requested hne

/-- Settles O17: `CpuUpdate.receive` alone writes `memoryValue`, `CpuUpdate.configure` alone the stored address. -/
theorem memoryValueChangesOnlyByReceive : Obligations.MemoryValueChangesOnlyByReceive := by
  intro s t h
  obtain ⟨-, m, hm, rfl⟩ := step_acts h
  cases hm with
  | fault f => exact ⟨absurd rfl, absurd rfl⟩
  | instr hturn hi ha hu =>
    refine ⟨fun hne => ?_, fun hne => ?_⟩
    · obtain heq | ⟨x, rfl⟩ := hu.memoryValue
      · exact absurd (heq.trans ha.accessed.sameCpu.memoryValue) hne
      · exact ⟨hturn, x, hi⟩
    · obtain heq | ⟨x, e, rfl⟩ := hu.targetAddress
      · exact absurd (heq.trans ha.accessed.sameCpu.targetAddress) hne
      · exact ⟨hturn, x, e, hi⟩
  | stmt ha hu =>
    obtain ⟨-, hmem, haddr⟩ := hu.driverObjects
    exact ⟨absurd (hmem.trans ha.sameCpu.memoryValue), absurd (haddr.trans ha.sameCpu.targetAddress)⟩
  | idle => exact ⟨absurd rfl, absurd rfl⟩
  | bus hen hb => exact ⟨absurd (busEffect_sameCpu hen hb).memoryValue, absurd (busEffect_sameCpu hen hb).targetAddress⟩

/-! ## Fault entry and the turn -/

/-- Settles O8: a step that makes no fault entry leaves FAULT as it found it, none. -/
theorem faultEntryChangesNothingElse : Obligations.FaultEntryChangesNothingElse := by
  intro s t f h hf
  obtain ⟨hs, m, hm, rfl⟩ := step_acts h
  have hne {t' : State} (heq : t'.fault = s.fault) : ¬ (passTurn t').fault = some f := fun hc => by
    cases (heq.trans hs).symm.trans hc
  cases hm with
  | fault g => cases hf; exact ⟨hs, rfl⟩
  | instr _ _ ha hu => exact absurd hf (hne (hu.sameHardware.fault.trans ha.accessed.fault.1))
  | stmt ha hu => exact absurd hf (hne (hu.sameHardware.fault.trans ha.fault.1))
  | idle => exact absurd hf (hne rfl)
  | bus hen hb => exact absurd hf (hne (busEffect_samePins hen hb).fault)

theorem fetchInstr_of_stmt {s : State} {i : Instr}
    (h : s.currentStmt = some (.instr i) ∨ ∃ a, s.currentStmt = some (.access a) ∧ decode a = .ok i) : fetchInstr s = some i := by
  obtain h | ⟨a, h, hd⟩ := h
  · simp [fetchInstr, h]
  · simp [fetchInstr, h, hd]

/-- Settles O5: such a statement is fetched, and `endTurn` passes the turn alone. -/
theorem stepRunsTheDecodedInstruction : Obligations.StepRunsTheDecodedInstruction := by
  intro s i hs hturn hstmt
  rw [step_of_none hs, act, hturn]
  simp only [cpuStep, fetchInstr_of_stmt hstmt]
  cases exec i s <;> rfl

/-- Settles O6: a turn of the bus agent is `busTurn`, and `endTurn` passes the turn alone. -/
theorem stepRunsTheJointStep : Obligations.StepRunsTheJointStep := by
  intro s b hs hturn
  have hact : act s = busTurn b s := by rw [act, hturn]
  rw [step_of_none hs, hact]
  cases busTurn b s <;> rfl

/-- Settles O7: the first step of the schedule finds FAULT set. -/
theorem stoppedMachineTakesNoStep : Obligations.StoppedMachineTakesNoStep := by
  intro s f who rest hf
  have hstep : stepAs who s = .fault f := step_of_fault hf
  rw [runAs, hstep]

/-! ## The frame of the driver operations -/

theorem State.pads_eq {s t : State} (h : ∀ n, t.pad n = s.pad n) : t.pads = s.pads := Vector.ext fun k hk => h ⟨k, hk⟩
theorem State.ctrls_eq {s t : State} (h : ∀ n, t.ctrl n = s.ctrl n) : t.ctrls = s.ctrls := Vector.ext fun k hk => h ⟨k, hk⟩

/-- A driver operation of a unit: the other unit, the pins, PHASE and every variable but its own are as before. -/
theorem exec_driver_frame {i : Instr} {s t : State} {u : UnitId} (hu : driverUnit s.board i = some u) (h : exec i s = .next t) :
    (∀ w, w ≠ u → t.unit w = s.unit w) ∧ (∀ y, resultVar i ≠ some y → lookupVar y t.vars = lookupVar y s.vars) ∧
      t.pads = s.pads ∧ t.ctrls = s.ctrls ∧ t.sioOut = s.sioOut ∧ t.sioOe = s.sioOe ∧ t.phase = s.phase := by
  obtain ⟨f, hf⟩ | ⟨m, ha, hup⟩ := exec_next i s t h
  · obtain rfl | rfl := raise_next hf.symm <;> exact ⟨fun _ _ => rfl, fun _ _ => rfl, rfl, rfl, rfl, rfl, rfl⟩
  · have hacc : AccessedIn (·.window = .i2c u) s m := by
      cases ha with
      | none => exact .none
      | read hr h => exact .read (hr u hu) h
      | write hr h => exact .write (hr u hu) h
    obtain ⟨un, k, rfl⟩ := hacc.window
    have hhw := hup.sameHardware
    exact ⟨fun w hw => (hhw.units w).trans (State.unit_setUnit_of_ne s u w un hw), fun y hy => hup.lookupVar_eq hy,
      State.pads_eq hhw.pads, State.ctrls_eq hhw.ctrls, hhw.sioOut, hhw.sioOe, hhw.phase⟩

/-- An operation that is none of the three listed leaves the driver objects alone. -/
theorem exec_driverObjects {i : Instr} {s t : State} (h : exec i s = .next t) :
    (t.requested = s.requested ∨ ∃ x, i = .requestByteFromMemory x) ∧
      (t.memoryValue = s.memoryValue ∨ ∃ x, i = .receiveBytesToMemory x) ∧
      (t.targetAddress = s.targetAddress ∨ ∃ x e, i = .configureAsTarget e x) := by
  obtain ⟨f, hf⟩ | ⟨m, ha, hup⟩ := exec_next i s t h
  · obtain rfl | rfl := raise_next hf.symm <;> exact ⟨.inl rfl, .inl rfl, .inl rfl⟩
  · have hcpu := ha.accessed.sameCpu
    exact ⟨hup.requested.imp (·.trans hcpu.requested) And.right, hup.memoryValue.imp_left (·.trans hcpu.memoryValue),
      hup.targetAddress.imp_left (·.trans hcpu.targetAddress)⟩

/-- Settles O50: a driver operation accesses its own unit alone, and its update of the CPU side writes what its name says. -/
theorem operationsTouchOnlyTheirUnit : Obligations.OperationsTouchOnlyTheirUnit := by
  intro i s t x h
  have htgt : s.board.tgtUnit ≠ s.board.ctrlUnit := otherUnit_ne _
  obtain ⟨hreq, hmem, haddr⟩ := exec_driverObjects h
  refine ⟨fun hi => ?_, fun hi => ?_⟩
  · have hd : driverUnit s.board i = some s.board.ctrlUnit ∧ resultVar i = x := by
      obtain ⟨e, rfl⟩ | ⟨e, rfl⟩ | rfl | rfl := hi <;> exact ⟨rfl, rfl⟩
    obtain ⟨hunit, hvars, hpins⟩ := exec_driver_frame hd.1 h
    have hmem' : t.memoryValue = s.memoryValue := hmem.resolve_right (by rintro ⟨y, rfl⟩; simp at hi)
    have haddr' : t.targetAddress = s.targetAddress := haddr.resolve_right (by rintro ⟨y, e, rfl⟩; simp at hi)
    exact ⟨hunit _ htgt, hmem', haddr', hd.2 ▸ hvars, hpins⟩
  · have hd : driverUnit s.board i = some s.board.tgtUnit ∧ resultVar i = x := by
      obtain ⟨e, rfl⟩ | rfl | rfl := hi <;> exact ⟨rfl, rfl⟩
    obtain ⟨hunit, hvars, hpins⟩ := exec_driver_frame hd.1 h
    have hreq' : t.requested = s.requested := hreq.resolve_right (by rintro ⟨y, rfl⟩; simp at hi)
    exact ⟨hunit _ htgt.symm, hreq', hd.2 ▸ hvars, hpins⟩

end Machine
end Sys2Proof
end

section
/-! The two invariants (30_encoding.md R112; 10_state.md R46 to R48): they hold at reset and every access, every update of the CPU side
and every joint step keeps them. -/

namespace Sys2Proof
namespace Machine

/-! ## The register patterns -/

/-- The part of `RegistersInv` that speaks of one unit. -/
structure UnitRegs (un : UnitState) : Prop where
  con : un.icCon >>> 10 = 0
  tar : un.icTar >>> 12 = 0
  sar : un.icSar >>> 10 = 0
  enable : un.icEnable >>> 1 = 0

theorem RegistersInv.unitRegs {s : State} (h : RegistersInv s) (u : UnitId) : UnitRegs (s.unit u) :=
  ⟨h.con u, h.tar u, h.sar u, h.enable u⟩

/-- The invariant of a state with the same pins and outputs. -/
theorem RegistersInv.of_samePins {s t : State} (h : RegistersInv s) (hunit : ∀ u, UnitRegs (t.unit u))
    (hpad : ∀ n, t.pad n = s.pad n) (hctrl : ∀ n, t.ctrl n = s.ctrl n) (hout : t.sioOut = s.sioOut) (hoe : t.sioOe = s.sioOe)
    (hvars : VarsWf t.vars) : RegistersInv t where
  con u := (hunit u).con
  tar u := (hunit u).tar
  sar u := (hunit u).sar
  enable u := (hunit u).enable
  pad n := hpad n ▸ h.pad n
  ctrl n := hctrl n ▸ h.ctrl n
  out := hout ▸ h.out
  oe := hoe ▸ h.oe
  vars := hvars

theorem RegistersInv.of_sameHardware {s t : State} (h : RegistersInv s) (hh : SameHardware s t) (hvars : VarsWf t.vars) :
    RegistersInv t :=
  h.of_samePins (fun u => hh.units u ▸ h.unitRegs u) hh.pads hh.ctrls hh.sioOut hh.sioOe hvars

theorem RegistersInv.setUnit {s : State} (h : RegistersInv s) {u : UnitId} {un : UnitState} (hun : UnitRegs un) :
    RegistersInv (s.setUnit u un) := by
  refine h.of_samePins (fun w => ?_) (fun _ => rfl) (fun _ => rfl) rfl rfl h.vars
  obtain ⟨-, hw⟩ | hw := unit_setUnit_cases s w u un
  · rw [hw]; exact hun
  · rw [hw]; exact h.unitRegs w

theorem RegistersInv.drew {s : State} (h : RegistersInv s) (k : Nat) : RegistersInv (s.drew k) :=
  h.of_samePins h.unitRegs (fun _ => rfl) (fun _ => rfl) rfl rfl h.vars

theorem RegistersInv.setPad {s : State} (h : RegistersInv s) {n : Pin} {v : Word} (hv : v >>> 9 = 0) :
    RegistersInv (s.setPad n v) where
  con := h.con
  tar := h.tar
  sar := h.sar
  enable := h.enable
  pad k := by
    rw [State.pad_setPad]
    split
    · exact hv
    · exact h.pad k
  ctrl := h.ctrl
  out := h.out
  oe := h.oe
  vars := h.vars

theorem RegistersInv.setCtrl {s : State} (h : RegistersInv s) {n : Pin} {v : Word} (hv : v >>> 5 = 0) :
    RegistersInv (s.setCtrl n v) where
  con := h.con
  tar := h.tar
  sar := h.sar
  enable := h.enable
  pad := h.pad
  ctrl k := by
    rw [State.ctrl_setCtrl]
    split
    · exact hv
    · exact h.ctrl k
  out := h.out
  oe := h.oe
  vars := h.vars

theorem RegistersInv.setOut {s : State} (h : RegistersInv s) {v : Word} (hv : v >>> 30 = 0) : RegistersInv (s.setOut v) :=
  ⟨h.con, h.tar, h.sar, h.enable, h.pad, h.ctrl, hv, h.oe, h.vars⟩

theorem RegistersInv.setOe {s : State} (h : RegistersInv s) {v : Word} (hv : v >>> 30 = 0) : RegistersInv (s.setOe v) :=
  ⟨h.con, h.tar, h.sar, h.enable, h.pad, h.ctrl, h.out, hv, h.vars⟩

theorem or_shiftRight_eq_zero {a b : Word} {k : Nat} (ha : a >>> k = 0) (hb : b >>> k = 0) : (a ||| b) >>> k = 0 := by
  rw [BitVec.ushiftRight_or_distrib, ha, hb]
  exact BitVec.zero_or

theorem and_shiftRight_eq_zero {a : Word} {k : Nat} (ha : a >>> k = 0) (b : Word) : (a &&& b) >>> k = 0 := by
  rw [BitVec.ushiftRight_and_distrib, ha]
  exact BitVec.zero_and

theorem RegistersInv.readReg {s m : State} (h : RegistersInv s) {r : Reg} {v : Word} (hm : readReg r s = .ok (v, m)) :
    RegistersInv m := by
  obtain rfl | rfl | ⟨u, un, rfl, hun⟩ := readReg_cases hm
  · exact h
  · exact h.drew 1
  · have hregs : UnitRegs un := by
      obtain ⟨rfl, -⟩ | rfl | rfl := hun <;> exact ⟨h.con u, h.tar u, h.sar u, h.enable u⟩
    exact (h.setUnit hregs).drew 1

/-- A write stores a value of the register's pattern (20_memory.md R86). -/
theorem RegistersInv.writeReg {s m : State} (h : RegistersInv s) {r : Reg} {v : Word} (hm : writeReg r v s = .ok m) :
    RegistersInv m := by
  obtain ⟨-, hv, hst⟩ := writeReg_ok hm
  obtain rfl | ⟨u, -, ⟨rfl, rfl⟩ | ⟨rfl, rfl⟩ | ⟨rfl, rfl⟩⟩ | ⟨u, rfl, hst⟩ | ⟨u, rfl, -, -, hst⟩ | ⟨u, rfl, -, -, hst⟩ |
    ⟨n, rfl, rfl⟩ | ⟨n, rfl, rfl⟩ | ⟨w, rfl, ⟨rfl, rfl⟩ | ⟨rfl, rfl⟩ | ⟨rfl, rfl⟩⟩ |
    ⟨w, rfl, ⟨rfl, rfl⟩ | ⟨rfl, rfl⟩ | ⟨rfl, rfl⟩⟩ := storeReg_cases hst
  · exact h
  · exact h.setUnit ⟨(admitsValue_icCon u v).1 hv, h.tar u, h.sar u, h.enable u⟩
  · exact h.setUnit ⟨h.con u, (admitsValue_icTar u v).1 hv, h.sar u, h.enable u⟩
  · exact h.setUnit ⟨h.con u, h.tar u, (admitsValue_icSar u v).1 hv, h.enable u⟩
  · obtain ⟨rfl, -⟩ := pushCommand_ok hst
    exact h.setUnit ⟨h.con u, h.tar u, h.sar u, h.enable u⟩
  · obtain ⟨rfl, -⟩ := enableUnit_ok hst
    refine h.setUnit ?_
    exact ⟨h.con u, h.tar u, h.sar u, (admitsValue_icEnable u v).1 hv⟩
  · obtain ⟨⟨_, _, _, rfl⟩, -⟩ := disableUnit_ok hst
    refine RegistersInv.drew (h.setUnit ?_) 3
    exact ⟨h.con u, h.tar u, h.sar u, (admitsValue_icEnable u v).1 hv⟩
  · exact h.setPad ((admitsValue_pad n _).1 hv)
  · exact h.setCtrl ((admitsValue_ctrl n _).1 hv)
  · exact h.setOut ((admitsValue_gpioOut _).1 hv)
  · exact h.setOut (or_shiftRight_eq_zero h.out ((admitsValue_gpioOutSet v).1 hv))
  · exact h.setOut (and_shiftRight_eq_zero h.out _)
  · exact h.setOe ((admitsValue_gpioOe _).1 hv)
  · exact h.setOe (or_shiftRight_eq_zero h.oe ((admitsValue_gpioOeSet v).1 hv))
  · exact h.setOe (and_shiftRight_eq_zero h.oe _)

theorem RegistersInv.accessed {s m : State} (h : RegistersInv s) (hm : Accessed s m) : RegistersInv m := by
  cases hm with
  | none => exact h
  | read hm => exact h.readReg hm
  | write hm => exact h.writeReg hm

theorem BusUnit.unitRegs {un un' : UnitState} (h : BusUnit un un') (hun : UnitRegs un) : UnitRegs un' :=
  ⟨h.icCon ▸ hun.con, h.icTar ▸ hun.tar, h.icSar ▸ hun.sar, h.icEnable ▸ hun.enable⟩

/-- Settles O11: a write stores only what its pattern admits, and no joint step writes these registers. -/
theorem registerPatternsAreKept : Obligations.RegisterPatternsAreKept := by
  intro s t h hstep
  obtain ⟨-, m, hm, rfl⟩ := step_acts hstep
  suffices hinv : RegistersInv m from
    hinv.of_samePins hinv.unitRegs (fun _ => rfl) (fun _ => rfl) rfl rfl hinv.vars
  cases hm with
  | fault f => exact h.of_samePins h.unitRegs (fun _ => rfl) (fun _ => rfl) rfl rfl h.vars
  | instr _ _ ha hu =>
    have hm := h.accessed ha.accessed
    exact hm.of_sameHardware hu.sameHardware (hu.varsWf hm.vars)
  | stmt ha hu =>
    have hm := h.accessed ha
    exact hm.of_sameHardware hu.sameHardware (hu.varsWf hm.vars)
  | idle => exact h
  | bus hen hb =>
    obtain ⟨hpads, hctrls, hout, hoe, -⟩ := busEffect_samePins hen hb
    exact h.of_samePins (fun u => (busEffect_busUnit hen hb u).unitRegs (h.unitRegs u)) (pad_of_pads hpads)
      (ctrl_of_ctrls hctrls) hout hoe ((busEffect_sameCpu hen hb).vars ▸ h.vars)

/-! ## The protocol state of one unit -/

/-- A disabled unit without a role and with empty FIFOs is legal. -/
theorem unitInv_of_disabled {un : UnitState} (hen : un.enabled = false) (hrole : un.role = .none) (htx : un.txf = [])
    (hrx : un.rxf = []) : UnitInv un where
  txDepth := by simp [htx]
  rxDepth := by simp [hrx]
  roleEnabled := by simp [hrole, hen]
  disabledEmpty _ := ⟨htx, hrx⟩
  config h := by rw [hen] at h; cases h
  oneCommand h := by rw [hrole] at h; cases h
  controllerForms h := by rw [hrole] at h; cases h
  targetForms h := by rw [hrole] at h; cases h
  abortFlushed h := by rw [hrole] at h; cases h

section UnitInv

variable {un : UnitState} (h : UnitInv un)
include h

theorem UnitInv.setRdReq (rq : Bool) : UnitInv { un with rdReq := rq } :=
  ⟨h.txDepth, h.rxDepth, h.roleEnabled, h.disabledEmpty, h.config, h.oneCommand, h.controllerForms, h.targetForms,
    h.abortFlushed⟩

theorem UnitInv.clearAbort : UnitInv { un with txAbrt := false, abrtSrc := 0 } :=
  ⟨h.txDepth, h.rxDepth, h.roleEnabled, h.disabledEmpty, h.config, h.oneCommand, h.controllerForms, h.targetForms,
    fun _ ht => by cases ht⟩

theorem UnitInv.popRx : UnitInv un.popRx where
  txDepth := h.txDepth
  rxDepth := by simp [UnitState.popRx]; have := h.rxDepth; omega
  roleEnabled := h.roleEnabled
  disabledEmpty hen := ⟨(h.disabledEmpty hen).1, by simp [UnitState.popRx, (h.disabledEmpty hen).2]⟩
  config := h.config
  oneCommand := h.oneCommand
  controllerForms := h.controllerForms
  targetForms := h.targetForms
  abortFlushed := h.abortFlushed

theorem UnitInv.pushRx (hen : un.enabled = true) (hroom : un.rxf.length ≠ Config.fifoDepth) (b : Byte) :
    UnitInv (un.pushRx b) where
  txDepth := h.txDepth
  rxDepth := by simp [UnitState.pushRx]; have := h.rxDepth; omega
  roleEnabled := h.roleEnabled
  disabledEmpty hoff := absurd (hen.symm.trans hoff) (by simp)
  config := h.config
  oneCommand := h.oneCommand
  controllerForms := h.controllerForms
  targetForms := h.targetForms
  abortFlushed := h.abortFlushed

theorem UnitInv.popTx : UnitInv un.popTx where
  txDepth := by simp [UnitState.popTx]; have := h.txDepth; omega
  rxDepth := h.rxDepth
  roleEnabled := h.roleEnabled
  disabledEmpty hen := ⟨by simp [UnitState.popTx, (h.disabledEmpty hen).1], (h.disabledEmpty hen).2⟩
  config := h.config
  oneCommand hr := by simp [UnitState.popTx]; have := h.oneCommand hr; omega
  controllerForms hr c hc := h.controllerForms hr c (List.mem_of_mem_tail hc)
  targetForms hr c hc := h.targetForms hr c (List.mem_of_mem_tail hc)
  abortFlushed hr ht := by simp [UnitState.popTx, h.abortFlushed hr ht]

/-- An abort flushes the TX FIFO (45_i2c_bus_engine.md R275, R279). -/
theorem UnitInv.abort (src : Word) : UnitInv { un with txAbrt := true, abrtSrc := src, txf := [] } where
  txDepth := Nat.zero_le _
  rxDepth := h.rxDepth
  roleEnabled := h.roleEnabled
  disabledEmpty hen := ⟨rfl, (h.disabledEmpty hen).2⟩
  config := h.config
  oneCommand _ := Nat.zero_le _
  controllerForms _ c hc := by cases hc
  targetForms _ c hc := by cases hc
  abortFlushed _ _ := rfl

/-- A push that R156 lets through. -/
theorem UnitInv.pushTx {v : Word} (hen : un.enabled = true) (hform : formAdmitted un.role (commandForm v) = true)
    (hroom : un.txf.length ≠ Config.fifoDepth) (hctrl : un.role = .controller → un.txAbrt = false ∧ un.txf = []) :
    UnitInv (un.pushTx (cmdOf v)) where
  txDepth := by simp [UnitState.pushTx]; have := h.txDepth; omega
  rxDepth := h.rxDepth
  roleEnabled := h.roleEnabled
  disabledEmpty hoff := absurd (hen.symm.trans hoff) (by simp)
  config := h.config
  oneCommand hr := by simp [UnitState.pushTx, (hctrl hr).2]
  controllerForms hr c hc := by
    obtain hc | hc := List.mem_append.1 hc
    · exact h.controllerForms hr c hc
    · obtain rfl := List.mem_singleton.1 hc
      exact (cmdOf_of_formAdmitted hform).1 hr
  targetForms hr c hc := by
    obtain hc | hc := List.mem_append.1 hc
    · exact h.targetForms hr c hc
    · obtain rfl := List.mem_singleton.1 hc
      exact (cmdOf_of_formAdmitted hform).2 hr
  abortFlushed hr ht := absurd ((hctrl hr).1.symm.trans ht) (by simp)

/-- The enabling write of a legal configuration (40_register_access.md R160). -/
theorem UnitInv.enable {v : Word} (hoff : un.enabled = false) (hv : getFlag .enable v = true) (hlegal : un.configLegal = true) :
    UnitInv { un with role := requestedRole un.icCon, icEnable := v } := by
  obtain ⟨htx, hrx⟩ := h.disabledEmpty hoff
  have hen : ({ un with role := requestedRole un.icCon, icEnable := v } : UnitState).enabled = true := hv
  have hrole : requestedRole un.icCon ≠ .none := fun hc => by simp [UnitState.configLegal, hc] at hlegal
  exact {
    txDepth := h.txDepth
    rxDepth := h.rxDepth
    roleEnabled := ⟨fun hr => absurd hr hrole, fun hoff => absurd (hen.symm.trans hoff) (by simp)⟩
    disabledEmpty := fun _ => ⟨htx, hrx⟩
    config := fun _ => ⟨hlegal, rfl⟩
    oneCommand := fun _ => by simp [htx]
    controllerForms := fun _ c hc => by simp [htx] at hc
    targetForms := fun _ c hc => by simp [htx] at hc
    abortFlushed := fun _ _ => htx }

theorem UnitInv.role_none (hoff : un.enabled = false) : un.role = .none := h.roleEnabled.2 hoff

/-- A configuration register may change while the unit is disabled (40_register_access.md R154). -/
theorem UnitInv.setConfig (hoff : un.enabled = false) (con tar sar : Word) :
    UnitInv { un with icCon := con, icTar := tar, icSar := sar } :=
  unitInv_of_disabled hoff (h.role_none hoff) (h.disabledEmpty hoff).1 (h.disabledEmpty hoff).2

end UnitInv

/-! ## The protocol state of the machine -/

/-- A unit is replaced: a pending read that names it still finds its role, and a controller without a command. -/
theorem ProtocolInv.setUnit {s : State} (h : ProtocolInv s) {u : UnitId} {un : UnitState} (hun : UnitInv un)
    (hpend : ∀ c t, s.phase = .readPending c t →
      (u = c → un.role = .controller ∧ un.txf = []) ∧ (u = t → un.role = .target)) : ProtocolInv (s.setUnit u un) where
  unit w := by
    obtain ⟨-, hw⟩ | hw := unit_setUnit_cases s w u un
    · rw [hw]; exact hun
    · rw [hw]; exact h.unit w
  pending c t hp := by
    obtain ⟨ht, hc, htr, htx⟩ := h.pending c t hp
    refine ⟨ht, ?_, ?_, ?_⟩ <;> rw [State.unit_setUnit] <;> split
    · next hcu => exact ((hpend c t hp).1 hcu.symm).1
    · exact hc
    · next htu => exact (hpend c t hp).2 htu.symm
    · exact htr
    · next hcu => exact ((hpend c t hp).1 hcu.symm).2
    · exact htx

/-- A unit is replaced by one with the same role and TX FIFO. -/
theorem ProtocolInv.setUnit_same {s : State} (h : ProtocolInv s) {u : UnitId} {un : UnitState} (hun : UnitInv un)
    (hrole : un.role = (s.unit u).role) (htx : un.txf = (s.unit u).txf) : ProtocolInv (s.setUnit u un) :=
  h.setUnit hun fun c t hp => by
    obtain ⟨-, hc, htr, hctx⟩ := h.pending c t hp
    exact ⟨fun hu => by subst hu; exact ⟨hrole.trans hc, htx.trans hctx⟩, fun hu => by subst hu; exact hrole.trans htr⟩

/-- No pending read names a disabled unit. -/
theorem ProtocolInv.not_pending {s : State} (h : ProtocolInv s) {u c t : UnitId} (hoff : (s.unit u).enabled = false)
    (hp : s.phase = .readPending c t) : u ≠ c ∧ u ≠ t := by
  obtain ⟨-, hc, htr, -⟩ := h.pending c t hp
  have hnone := (h.unit u).role_none hoff
  refine ⟨fun huc => ?_, fun hut => ?_⟩
  · rw [← huc, hnone] at hc
    cases hc
  · rw [← hut, hnone] at htr
    cases htr

theorem ProtocolInv.of_sameHardware {s t : State} (hh : SameHardware s t) (h : ProtocolInv s) : ProtocolInv t where
  unit u := hh.units u ▸ h.unit u
  pending c w hp := by
    rw [hh.units, hh.units]
    exact h.pending c w (hh.phase ▸ hp)

theorem ProtocolInv.drew {s : State} (h : ProtocolInv s) (k : Nat) : ProtocolInv (s.drew k) := ⟨h.unit, h.pending⟩

theorem ProtocolInv.readReg {s m : State} (h : ProtocolInv s) {r : Reg} {v : Word} (hm : readReg r s = .ok (v, m)) :
    ProtocolInv m := by
  obtain rfl | rfl | ⟨u, un, rfl, ⟨rfl, -⟩ | rfl | rfl⟩ := readReg_cases hm
  · exact h
  · exact h.drew 1
  · exact (h.setUnit_same (h.unit u).popRx rfl rfl).drew 1
  · exact (h.setUnit_same ((h.unit u).setRdReq false) rfl rfl).drew 1
  · exact (h.setUnit_same (h.unit u).clearAbort rfl rfl).drew 1

theorem Phase.names_eq_false {p : Phase} {u c t : UnitId} (h : p.names u = false) (hp : p = .readPending c t) : u ≠ c ∧ u ≠ t := by
  subst hp
  simpa [Phase.names] using h

theorem Phase.reading_readPending {u t : UnitId} : (Phase.readPending u t).reading u = true := by simp [Phase.reading]

theorem ProtocolInv.writeReg {s m : State} (h : ProtocolInv s) {r : Reg} {v : Word} (hm : writeReg r v s = .ok m) :
    ProtocolInv m := by
  obtain rfl | ⟨u, hoff, ⟨-, rfl⟩ | ⟨-, rfl⟩ | ⟨-, rfl⟩⟩ | ⟨u, -, hst⟩ | ⟨u, -, hoff, hv, hst⟩ | ⟨u, -, -, hv, hst⟩ |
    ⟨n, -, rfl⟩ | ⟨n, -, rfl⟩ | ⟨w, rfl, -⟩ | ⟨w, rfl, -⟩ := storeReg_cases (writeReg_ok hm).2.2
  · exact h
  · exact h.setUnit_same ((h.unit u).setConfig hoff v _ _) rfl rfl
  · exact h.setUnit_same ((h.unit u).setConfig hoff _ v _) rfl rfl
  · exact h.setUnit_same ((h.unit u).setConfig hoff _ _ v) rfl rfl
  · obtain ⟨rfl, hen, hform, hroom, hctrl⟩ := pushCommand_ok hst
    refine h.setUnit ((h.unit u).pushTx hen hform hroom fun hr => ⟨(hctrl hr).1, (hctrl hr).2.1⟩) fun c t hp => ?_
    obtain ⟨-, hc, htr, -⟩ := h.pending c t hp
    refine ⟨fun hu => ?_, fun hu => by subst hu; exact htr⟩
    subst hu
    have hreading := (hctrl hc).2.2
    rw [hp, Phase.reading_readPending] at hreading
    cases hreading
  · obtain ⟨rfl, hlegal, -⟩ := enableUnit_ok hst
    refine h.setUnit ((h.unit u).enable hoff hv hlegal) fun c t hp => ?_
    exact ⟨fun hu => absurd hu (h.not_pending hoff hp).1, fun hu => absurd hu (h.not_pending hoff hp).2⟩
  · obtain ⟨⟨_, _, _, rfl⟩, hnames, -⟩ := disableUnit_ok hst
    refine (h.setUnit (unitInv_of_disabled ?_ rfl rfl rfl) fun c t hp => ?_).drew 3
    · exact hv
    exact ⟨fun hu => absurd hu (Phase.names_eq_false hnames hp).1, fun hu => absurd hu (Phase.names_eq_false hnames hp).2⟩
  all_goals exact ⟨h.unit, h.pending⟩

theorem ProtocolInv.accessed {s m : State} (hm : Accessed s m) (h : ProtocolInv s) : ProtocolInv m := by
  cases hm with
  | none => exact h
  | read hm => exact h.readReg hm
  | write hm => exact h.writeReg hm

/-! ## The joint steps -/

/-- `ready(c)` (45_i2c_bus_engine.md R273). -/
theorem State.ready_iff {s : State} {c : UnitId} :
    s.ready c = true ↔ (s.unit c).enabled = true ∧ (s.unit c).role = .controller ∧ (s.unit c).txAbrt = false ∧
      (s.unit c).txf ≠ [] ∧ s.phase = .idle := by
  simp [State.ready, List.length_pos_iff, and_assoc]

/-- `acks(c, t)` (45_i2c_bus_engine.md R272). -/
theorem State.acks_iff {s : State} {c t : UnitId} :
    s.acks c t = true ↔ (s.unit t).enabled = true ∧ (s.unit t).role = .target ∧ s.pinsReady t = true ∧
      (s.unit t).icSar &&& 0x7F = (s.unit c).icTar &&& 0x7F := by
  rw [State.acks, getField_sarAddress_and, getField_tarAddress_and]
  simp [and_assoc]

theorem ProtocolInv.setUnits {s : State} (h : ProtocolInv s) {c d : UnitId} {un un' : UnitState} {p : Phase} (hne : d ≠ c)
    (hun : UnitInv un) (hun' : UnitInv un')
    (hp : p = .idle ∨ p = .readPending c d ∧ d = otherUnit c ∧ un.role = .controller ∧ un'.role = .target ∧ un.txf = []) :
    ProtocolInv (((s.setUnit c un).setUnit d un').setPhase p) where
  unit w := by
    rw [State.setPhase_unit, State.unit_setUnit, State.unit_setUnit]
    split
    · exact hun'
    split
    · exact hun
    · exact h.unit w
  pending c' t' hp' := by
    rw [State.setPhase_phase] at hp'
    obtain rfl | ⟨rfl, hd, hc, ht, htx⟩ := hp
    · cases hp'
    · cases hp'
      rw [State.setPhase_unit, State.setPhase_unit, State.unit_setUnit_self, State.unit_setUnit_of_ne _ _ _ _ hne.symm,
        State.unit_setUnit_self]
      exact ⟨hd, hc, ht, htx⟩

theorem ProtocolInv.busEffect {b : BusStep} {s t : State} (hen : s.busEnabled b = true) (hb : busEffect b s = .ok t)
    (h : ProtocolInv s) : ProtocolInv t := by
  obtain ⟨c, hready, hack, ⟨e, rest, -, htx, hroom, rfl⟩ | ⟨-, -, rfl⟩⟩ | ⟨c, hready, -, rfl⟩ |
    ⟨c, e, rest, -, hp, -, hroom, rfl⟩ | ⟨c, -, -, rfl⟩ := busEffect_cases hen hb
  · obtain ⟨-, -, -, -, hidle⟩ := State.ready_iff.1 hready
    have hinv := h.setUnits (p := .idle) (otherUnit_ne c) (h.unit c).popTx
      ((h.unit (otherUnit c)).pushRx (State.acks_iff.1 hack).1 hroom e.dat) (.inl rfl)
    exact ⟨hinv.unit, fun c' t' hp => by cases hidle.symm.trans hp⟩
  · obtain ⟨-, hrole, -, -, -⟩ := State.ready_iff.1 hready
    refine h.setUnits (otherUnit_ne c) (h.unit c).popTx ((h.unit (otherUnit c)).setRdReq true)
      (.inr ⟨rfl, rfl, hrole, (State.acks_iff.1 hack).2.1, ?_⟩)
    have hone := (h.unit c).oneCommand hrole
    have hlen : (s.unit c).popTx.txf.length = (s.unit c).txf.length - 1 := List.length_tail
    exact List.eq_nil_of_length_eq_zero (by omega)
  · obtain ⟨-, -, -, -, hidle⟩ := State.ready_iff.1 hready
    exact h.setUnit ((h.unit c).abort _) fun c' t' hp => by cases hidle.symm.trans hp
  · have hc := (h.pending _ _ hp).2.1
    have hcen : (s.unit c).enabled = true := Bool.eq_true_of_not_eq_false fun hoff => by
      rw [(h.unit c).role_none hoff] at hc
      cases hc
    exact h.setUnits (otherUnit_ne c).symm (h.unit (otherUnit c)).popTx ((h.unit c).pushRx hcen hroom e.dat) (.inl rfl)
  · have hunit := (h.unit c).abort s.lostReason
    refine ⟨fun w => ?_, fun c' t' hp => by cases hp⟩
    obtain ⟨-, hw⟩ | hw := unit_setUnit_cases s w c { s.unit c with txAbrt := true, abrtSrc := s.lostReason, txf := [] }
    · exact hw ▸ hunit
    · exact hw ▸ h.unit w

/-- Settles O12: every access, every update of the CPU side and every joint step keeps `ProtocolInv`. -/
theorem protocolStateStaysLegal : Obligations.ProtocolStateStaysLegal := fun _ _ h hstep =>
  step_keeps (fun _ _ => .of_sameHardware) (fun _ _ h => ⟨h.unit, h.pending⟩) (fun _ h => ⟨h.unit, h.pending⟩)
    (fun _ _ => .accessed) (fun _ _ _ => .busEffect) h hstep

/-! ## Reset (10_state.md R54) -/

theorem State.reset_unit (u : UnitId) : State.reset.unit u = UnitState.reset := by revert u; decide

/-- Settles O9: the values are the fields of `State.reset`. -/
theorem resetIsTheLaunchState : Obligations.ResetIsTheLaunchState := by
  refine ⟨State.reset_unit, rfl, fun n => ?_, rfl, rfl, rfl, rfl, rfl, rfl, rfl⟩
  revert n
  decide

/-- Settles O10: the reset values meet their patterns, and both units are disabled with nothing queued. -/
theorem invariantsHoldAtReset : Obligations.InvariantsHoldAtReset := by
  have hregs : UnitRegs UnitState.reset := by constructor <;> decide
  have hpins : ∀ n, State.reset.pad n >>> 9 = 0 ∧ State.reset.ctrl n >>> 5 = 0 := by decide
  refine ⟨⟨fun u => ?_, fun u => ?_, fun u => ?_, fun u => ?_, fun n => (hpins n).1, fun n => (hpins n).2, rfl, rfl,
    List.Pairwise.nil⟩, fun u => ?_, fun c t hp => by cases hp⟩
  all_goals rw [State.reset_unit]
  · exact hregs.con
  · exact hregs.tar
  · exact hregs.sar
  · exact hregs.enable
  · exact unitInv_of_disabled rfl rfl rfl rfl

end Machine
end Sys2Proof
end

section
/-! The bus agent (45_i2c_bus_engine.md R271 to R279): what each joint step does when it is enabled, when none is, and the runs that
stand still: the end of a run and a wait without a source. -/

namespace Sys2Proof
namespace Machine

/-! ## One turn of the bus agent -/

theorem busTurn_of_ok {b : BusStep} {s t : State} (hen : s.busEnabled b = true) (h : busEffect b s = .ok t) :
    busTurn b s = .next t := by rw [busTurn, if_pos hen, settle_ok h]

theorem busTurn_of_error {b : BusStep} {s : State} {f : Fault} (hs : s.fault = .none) (hen : s.busEnabled b = true)
    (h : busEffect b s = .error f) : busTurn b s = .next (s.setFault f) := by
  rw [busTurn, if_pos hen, h]
  exact raise_of_none hs f

theorem busTurn_of_not_enabled {b : BusStep} {s : State} (h : s.busEnabled b = false) : busTurn b s = .next s :=
  if_neg (by simp [h])

/-! ## A waiting command (45_i2c_bus_engine.md R273 to R276) -/

section Command

variable {s : State} {c : UnitId} {e : Cmd} {rest : List Cmd} (hen : (s.unit c).enabled = true)
  (hrole : (s.unit c).role = .controller) (habrt : (s.unit c).txAbrt = false) (htx : (s.unit c).txf = e :: rest)
  (hidle : s.phase = .idle) (hup : s.busUp c = true)
include hen hrole habrt htx hidle

theorem ready_of_command : s.ready c = true :=
  State.ready_iff.2 ⟨hen, hrole, habrt, by simp [htx], hidle⟩

include hup

theorem busEnabled_write (hcmd : e.cmd = false) : s.busEnabled (.write c) = true := by
  simp [State.busEnabled, State.headCmd, ready_of_command hen hrole habrt htx hidle, htx, hcmd, hup]

theorem busEnabled_readAddr (hcmd : e.cmd = true) : s.busEnabled (.readAddr c) = true := by
  simp [State.busEnabled, State.headCmd, ready_of_command hen hrole habrt htx hidle, htx, hcmd, hup]

end Command

/-- Without an acknowledge the command is flushed (R275). -/
theorem abortNoAck_eq (c : UnitId) (s : State) :
    abortNoAck c s = s.setUnit c { s.unit c with txAbrt := true, abrtSrc := (s.unit c).abrtSrc ||| 1, txf := [] } := by
  rw [abortNoAck, fieldMask_abrt7bAddrNoack]

/-- The byte of a command reaches the target that acknowledges it and has room. -/
theorem busWrite_of_acks {s : State} {c : UnitId} {e : Cmd} {rest : List Cmd} (htx : (s.unit c).txf = e :: rest)
    (hack : s.acks c (otherUnit c) = true) (hroom : (s.unit (otherUnit c)).rxf.length ≠ Config.fifoDepth) :
    busWrite c s = .ok ((s.setUnit c { s.unit c with txf := rest }).setUnit (otherUnit c)
      { s.unit (otherUnit c) with rxf := (s.unit (otherUnit c)).rxf ++ [e.dat] }) := by
  simp only [busWrite, if_pos hack, if_neg hroom, UnitState.popTx, UnitState.pushRx, htx, List.tail_cons]

theorem busWrite_of_not_acks {s : State} {c : UnitId} (hack : ¬ s.acks c (otherUnit c) = true) :
    busWrite c s = .ok (abortNoAck c s) := if_neg hack

/-- A read command is taken and the target's request flag raised. -/
theorem busReadAddr_of_acks {s : State} {c : UnitId} {e : Cmd} {rest : List Cmd} (htx : (s.unit c).txf = e :: rest)
    (hack : s.acks c (otherUnit c) = true) (hempty : (s.unit (otherUnit c)).txf = []) :
    busReadAddr c s = .ok (((s.setUnit c { s.unit c with txf := rest }).setUnit (otherUnit c)
      { s.unit (otherUnit c) with rdReq := true }).setPhase (.readPending c (otherUnit c))) := by
  simp [busReadAddr, hack, hempty, UnitState.popTx, htx]

theorem busReadAddr_of_not_acks {s : State} {c : UnitId} (hack : ¬ s.acks c (otherUnit c) = true) :
    busReadAddr c s = .ok (abortNoAck c s) := if_neg hack

/-- Settles O51: the step is enabled, and `acks` decides between the delivery, the overflow and the abort. -/
theorem busWriteDeliversOrAborts : Obligations.BusWriteDeliversOrAborts := by
  intro s c e rest hen hrole habrt htx hidle hcmd hup t acks
  have hstep := busEnabled_write hen hrole habrt htx hidle hup hcmd
  have hacks : s.acks c t = true ↔ acks := State.acks_iff
  refine ⟨fun ha hroom => ?_, fun ha hs hfull => ?_, fun ha => ?_⟩
  · exact busTurn_of_ok hstep (busWrite_of_acks htx (hacks.2 ha) (Nat.ne_of_lt hroom))
  · refine busTurn_of_error hs hstep ?_
    simp only [busEffect, busWrite]
    rw [if_pos (hacks.2 ha), if_pos hfull]
  · rw [← abortNoAck_eq]
    exact busTurn_of_ok hstep (busWrite_of_not_acks (mt hacks.1 ha))

/-- Settles O52: the step is enabled, and `acks` decides between the request, the stale byte and the abort. -/
theorem busReadAddressRaisesTheRequest : Obligations.BusReadAddressRaisesTheRequest := by
  intro s c e rest hen hrole habrt htx hidle hcmd hup t acks
  have hstep := busEnabled_readAddr hen hrole habrt htx hidle hup hcmd
  have hacks : s.acks c t = true ↔ acks := State.acks_iff
  refine ⟨fun ha hempty => ?_, fun ha hs hstale => ?_, fun ha => ?_⟩
  · exact busTurn_of_ok hstep (busReadAddr_of_acks htx (hacks.2 ha) hempty)
  · refine busTurn_of_error hs hstep ?_
    simp only [busEffect, busReadAddr]
    rw [if_pos (hacks.2 ha), if_pos (List.length_pos_iff.2 hstale)]
  · rw [← abortNoAck_eq]
    exact busTurn_of_ok hstep (busReadAddr_of_not_acks (mt hacks.1 ha))

/-! ## A pending read (45_i2c_bus_engine.md R277) -/

theorem busEnabled_readData {s : State} {c : UnitId} (hp : s.phase = .readPending c (otherUnit c)) (hup : s.busUp c = true)
    (hpins : s.pinsReady (otherUnit c) = true) (htx : (s.unit (otherUnit c)).txf ≠ []) : s.busEnabled (.readData c) = true := by
  simp [State.busEnabled, hp, hup, hpins, List.length_pos_iff, htx]

/-- The reply reaches the controller that has room. -/
theorem busReadData_of_room {s : State} {c : UnitId} {e : Cmd} {rest : List Cmd} (htx : (s.unit (otherUnit c)).txf = e :: rest)
    (hroom : (s.unit c).rxf.length ≠ Config.fifoDepth) :
    busReadData c s = .ok (((s.setUnit (otherUnit c) { s.unit (otherUnit c) with txf := rest }).setUnit c
      { s.unit c with rxf := (s.unit c).rxf ++ [e.dat] }).setPhase .idle) := by
  simp only [busReadData, if_neg hroom, UnitState.popTx, UnitState.pushRx, htx, List.tail_cons]

/-- In a pending read no controller is ready. -/
theorem ready_of_readPending {s : State} {c t : UnitId} (hp : s.phase = .readPending c t) (u : UnitId) : s.ready u = false :=
  Bool.eq_false_iff.2 fun h => by
    obtain ⟨-, -, -, -, hidle⟩ := State.ready_iff.1 h
    cases hidle.symm.trans hp

/-- The target stretches the clock: with nothing to send no joint step is enabled. -/
theorem busEnabled_of_stretch {s : State} {c : UnitId} (hp : s.phase = .readPending c (otherUnit c)) (hup : s.busUp c = true)
    (hpins : s.pinsReady (otherUnit c) = true) (htx : (s.unit (otherUnit c)).txf = []) (b : BusStep) : s.busEnabled b = false := by
  have hready := ready_of_readPending hp
  cases b with
  | write d | readAddr d => simp [State.busEnabled, hready]
  | readData d =>
    by_cases hd : c = d
    · subst hd; simp [State.busEnabled, htx]
    · simp [State.busEnabled, hp, hd]
  | lost d =>
    by_cases hd : c = d
    · subst hd; simp [State.busEnabled, hready, hup, hpins]
    · simp [State.busEnabled, hready, hp, hd]

/-- Settles O53: BUS-READ-DATA is enabled exactly with a byte to send. -/
theorem busReadDataDeliversTheReply : Obligations.BusReadDataDeliversTheReply := by
  intro s c hp hup hpins
  refine ⟨fun e rest htx hroom => ?_, fun hs htx hfull => ?_, fun htx b => ?_⟩
  · exact busTurn_of_ok (busEnabled_readData hp hup hpins (by simp [htx])) (busReadData_of_room htx (Nat.ne_of_lt hroom))
  · exact busTurn_of_error hs (busEnabled_readData hp hup hpins htx) (if_pos hfull)
  · exact busTurn_of_not_enabled (busEnabled_of_stretch hp hup hpins htx b)

/-! ## A lost bus (45_i2c_bus_engine.md R279) -/

/-- The drawn reason: some bit of 16:0, no bit of 31:17. -/
theorem State.lostReason_range (s : State) : s.lostReason &&& 0x1FFFF ≠ 0 ∧ s.lostReason >>> 17 = 0 := by
  have hlt := (Config.freeAbortReason s.drawCount).isLt
  have hnat : s.lostReason.toNat = (Config.freeAbortReason s.drawCount).val + 1 := by
    rw [State.lostReason, BitVec.toNat_ofNat, Nat.mod_eq_of_lt (by omega)]
  have hhigh : s.lostReason >>> 17 = 0 := by
    refine BitVec.eq_of_toNat_eq ?_
    rw [BitVec.toNat_ushiftRight, hnat, Nat.shiftRight_eq_div_pow]
    exact Nat.div_eq_of_lt (by omega)
  refine ⟨fun h => ?_, hhigh⟩
  rw [and_of_shiftRight_eq_zero hhigh (by decide)] at h
  rw [h] at hnat
  exact Nat.succ_ne_zero _ hnat.symm

/-- Settles O54: in either case BUS-LOST is enabled; the reason is the draw's. -/
theorem lostBusAbortsWithSomeReason : Obligations.LostBusAbortsWithSomeReason := by
  intro s c h
  obtain ⟨hlow, hhigh⟩ := s.lostReason_range
  refine ⟨s.lostReason, hlow, hhigh, busTurn_of_ok ?_ rfl⟩
  obtain ⟨hen, hrole, habrt, htx, hidle, hdown⟩ | ⟨hp, hdown⟩ := h
  · have hready : s.ready c = true := State.ready_iff.2 ⟨hen, hrole, habrt, htx, hidle⟩
    simp [State.busEnabled, hready, hdown]
  · obtain hdown | hdown := hdown <;> simp [State.busEnabled, hp, hdown]

/-! ## A quiet bus -/

/-- On an idle bus no step of a controller that is not ready is enabled. -/
theorem busEnabled_of_not_ready {s : State} {c : UnitId} (hidle : s.phase = .idle) (hready : s.ready c = false) :
    s.busEnabled (.write c) = false ∧ s.busEnabled (.readAddr c) = false ∧ s.busEnabled (.readData c) = false ∧
      s.busEnabled (.lost c) = false := by
  simp [State.busEnabled, hidle, hready]

theorem busTurn_of_quiet {s : State} (hidle : s.phase = .idle) (hready : ∀ c, s.ready c = false) (b : BusStep) :
    busTurn b s = .next s := by
  refine busTurn_of_not_enabled ?_
  cases b with
  | write c => exact (busEnabled_of_not_ready hidle (hready c)).1
  | readAddr c => exact (busEnabled_of_not_ready hidle (hready c)).2.1
  | readData c => exact (busEnabled_of_not_ready hidle (hready c)).2.2.1
  | lost c => exact (busEnabled_of_not_ready hidle (hready c)).2.2.2

/-- Settles O55: an aborted controller is not ready. -/
theorem abortedControllerPerformsNothing : Obligations.AbortedControllerPerformsNothing := by
  intro s c habrt hidle
  have hready : s.ready c = false := by simp [State.ready, habrt]
  obtain ⟨hw, ha, hd, hl⟩ := busEnabled_of_not_ready hidle hready
  exact ⟨busTurn_of_not_enabled hw, busTurn_of_not_enabled ha, busTurn_of_not_enabled hd, busTurn_of_not_enabled hl⟩

/-! ## The end of a run (30_encoding.md R143) -/

theorem step_of_act {s t : State} (hs : s.fault = .none) (h : act s = .next t) : step s = .next (passTurn t) := by
  rw [step_of_none hs, h]
  rfl

/-- The CPU takes no step at `halt` or past the last statement. -/
theorem cpuStep_of_halted {s : State} (h : s.halted = true) : cpuStep s = .next s := by
  unfold State.halted at h
  split at h
  · next hstmt => simp [cpuStep, fetchInstr, runOther, hstmt]
  · next hstmt => simp [cpuStep, fetchInstr, runOther, hstmt]
  · cases h

theorem Ended.not_ready {s : State} (h : Ended s) (c : UnitId) : s.ready c = false := by
  obtain ⟨-, -, htx, -⟩ := h
  simp [State.ready, htx c]

/-- Whoever has the turn at the end of a run, nothing happens but that the turn passes. -/
theorem Ended.stepAs {s : State} (h : Ended s) (who : Turn) : stepAs who s = .next (passTurn { s with turn := who }) := by
  have hend : Ended { s with turn := who } := h
  have hready := hend.not_ready
  obtain ⟨hhalt, hidle, -, hs⟩ := h
  refine step_of_act hs ?_
  cases who with
  | cpu => exact cpuStep_of_halted hhalt
  | bus b => exact busTurn_of_quiet (s := { s with turn := .bus b }) hidle hready b

/-- Settles O57, by induction on the schedule: each step passes the turn and leaves an end of the run. -/
theorem endOfARunIsStable : Obligations.EndOfARunIsStable := by
  intro s l h
  induction l generalizing s with
  | nil => exact ⟨s, rfl, .refl s⟩
  | cons who rest ih =>
    have hend : Ended (passTurn { s with turn := who }) := h
    obtain ⟨t, ht, hsame⟩ := ih _ hend
    refine ⟨t, ?_, hsame⟩
    rw [runAs, h.stepAs who]
    exact ht

/-! ## A wait without a source (42_busy_wait.md R202) -/

theorem fetchInstr_congr {s t : State} (hp : t.program = s.program) (hpc : t.pc = s.pc) : fetchInstr t = fetchInstr s := by
  rw [fetchInstr, fetchInstr, State.currentStmt, State.currentStmt, hp, hpc]

theorem cpuStep_of_fetch {s : State} {i : Instr} (h : fetchInstr s = some i) : cpuStep s = exec i s := by
  rw [cpuStep, h]

/-- A failed poll leaves the CPU where it waits. -/
theorem exec_receive_waits {s : State} (x : Option Var) (hstep : s.pc.step = 0) (hrx : (s.unit s.board.tgtUnit).rxf = []) :
    exec (.receiveBytesToMemory x) s = .next (s.drew 1) := by
  rw [exec_receiveBytesToMemory_wait x hstep, pollRfne_of_nil hrx]

theorem exec_receiveRequested_waits {s : State} (x : Option Var) (hstep : s.pc.step = 1)
    (hrx : (s.unit s.board.ctrlUnit).rxf = []) : exec (.receiveRequestedBytesFromMemory x) s = .next (s.drew 1) :=
  ((receiveRequestedRunsItsSteps s x).2.1 hstep).2 hrx

/-- A target that is not enabled acknowledges nothing, so no joint step faults. -/
theorem busEffect_of_disabled_target {s : State} {b : BusStep} (h : ProtocolInv s) (hen : s.busEnabled b = true)
    (hoff : (s.unit s.board.tgtUnit).enabled = false) : ∃ t, busEffect b s = .ok t := by
  have hnack {c : UnitId} (hc : (s.unit c).enabled = true) : ¬ s.acks c (otherUnit c) = true := fun hack => by
    obtain ⟨hother, -⟩ := State.acks_iff.1 hack
    obtain heq | heq := eq_or_eq_otherUnit s.board.tgtUnit c
    · rw [heq, hc] at hoff
      cases hoff
    · rw [heq, hother] at hoff
      cases hoff
  cases b with
  | write c =>
    simp only [State.busEnabled, Bool.and_eq_true] at hen
    exact ⟨_, busWrite_of_not_acks (hnack (State.ready_iff.1 hen.1.1).1)⟩
  | readAddr c =>
    simp only [State.busEnabled, Bool.and_eq_true] at hen
    exact ⟨_, busReadAddr_of_not_acks (hnack (State.ready_iff.1 hen.1.1).1)⟩
  | readData c =>
    simp only [State.busEnabled, Bool.and_eq_true, beq_iff_eq] at hen
    obtain ⟨hc, ht⟩ := h.not_pending hoff hen.1.1.1
    exact absurd (eq_or_eq_otherUnit s.board.tgtUnit c) (not_or.2 ⟨hc, ht⟩)
  | lost c => exact ⟨_, rfl⟩

/-- Under a target that is not enabled, a turn of the bus leaves the CPU side, FAULT and the target's enable bit alone. -/
theorem busTurn_of_disabled_target {s : State} (h : ProtocolInv s) (b : BusStep)
    (hoff : (s.unit s.board.tgtUnit).enabled = false) :
    ∃ t, busTurn b s = .next t ∧ SameCpu s t ∧ t.fault = s.fault ∧ (t.unit s.board.tgtUnit).enabled = false := by
  by_cases hen : s.busEnabled b = true
  · obtain ⟨t, ht⟩ := busEffect_of_disabled_target h hen hoff
    refine ⟨t, busTurn_of_ok hen ht, busEffect_sameCpu hen ht, (busEffect_samePins hen ht).fault, ?_⟩
    rw [UnitState.enabled, (busEffect_busUnit hen ht _).icEnable]
    exact hoff
  · exact ⟨s, busTurn_of_not_enabled (by simpa using hen), .refl s, rfl, hoff⟩

theorem sameCpu_drew (s : State) (k : Nat) : SameCpu s (s.drew k) := ⟨rfl, rfl, rfl, rfl, rfl, rfl, rfl, rfl⟩

/-- A turn at a target's wait for a byte while the target is not enabled. -/
theorem act_at_receive {s : State} {x : Option Var} (h : ProtocolInv s) (hi : fetchInstr s = some (.receiveBytesToMemory x))
    (hstep : s.pc.step = 0) (hoff : (s.unit s.board.tgtUnit).enabled = false) :
    ∃ t, act s = .next t ∧ SameCpu s t ∧ t.fault = s.fault ∧ (t.unit s.board.tgtUnit).enabled = false := by
  unfold act
  split
  · refine ⟨s.drew 1, ?_, sameCpu_drew s 1, rfl, hoff⟩
    rw [cpuStep_of_fetch hi, exec_receive_waits x hstep ((h.unit _).disabledEmpty hoff).2]
  · exact busTurn_of_disabled_target h _ hoff

/-- With no command queued and no read under way, a turn at the controller's wait for a byte only uses draws. -/
theorem act_at_receiveRequested {s : State} {x : Option Var} (hi : fetchInstr s = some (.receiveRequestedBytesFromMemory x))
    (hstep : s.pc.step = 1) (hidle : s.phase = .idle) (hready : ∀ c, s.ready c = false)
    (hrx : (s.unit s.board.ctrlUnit).rxf = []) : ∃ k, act s = .next (s.drew k) := by
  unfold act
  split
  · exact ⟨1, by rw [cpuStep_of_fetch hi, exec_receiveRequested_waits x hstep hrx]⟩
  · exact ⟨0, busTurn_of_quiet hidle hready _⟩

/-- Settles O60: the poll of an empty receive FIFO leaves the CPU where it is; a target that is not enabled acknowledges nothing, and
without a command no controller is ready. -/
theorem waitWithoutASourceNeverEnds : Obligations.WaitWithoutASourceNeverEnds := by
  refine ⟨fun s x h hs hi hstep hoff => ?_, fun s x h hs hi hstep hidle hctrl htgt htx hrx => ?_⟩
  · obtain ⟨t, hact, hcpu, hfault, hen⟩ := act_at_receive h hi hstep hoff
    have hnext := step_of_act hs hact
    refine ⟨_, hnext, protocolStateStaysLegal s _ h hnext, hfault.trans hs, ?_, hcpu.pc, ?_, hcpu.memoryValue, hcpu.vars⟩
    · exact (fetchInstr_congr (t := passTurn t) hcpu.program hcpu.pc).trans hi
    · have hboard : (passTurn t).board = s.board := hcpu.board
      rw [hboard]
      exact hen
  · have hready (c : UnitId) : s.ready c = false := Bool.eq_false_iff.2 fun hc => by
      obtain ⟨-, hrole, -, hne, -⟩ := State.ready_iff.1 hc
      obtain rfl | rfl := eq_or_eq_otherUnit c s.board.ctrlUnit
      · exact hne htx
      · cases hrole.symm.trans htgt
    obtain ⟨k, hact⟩ := act_at_receiveRequested hi hstep hidle hready hrx
    have hnext := step_of_act hs hact
    exact ⟨_, hnext, protocolStateStaysLegal s _ h hnext, hs, (fetchInstr_congr (t := passTurn (s.drew k)) rfl rfl).trans hi, rfl,
      hidle, hctrl, htgt, htx, hrx, rfl⟩

end Machine
end Sys2Proof
end

section
/-! The register file (40_register_access.md R154 to R164): what a read shows of the tracked bits, and each write with its checks in the
order of R314. -/

namespace Sys2Proof
namespace Machine

/-! ## Drawn and tracked bits -/

/-- Masking away every tracked bit leaves the draw's. -/
theorem and_keep_draw {m t : Word} (h : t &&& m = 0) (d : Word) : ((d &&& m) ||| t) &&& m = d &&& m := by
  rw [BitVec.and_or_distrib_right, h, BitVec.and_assoc, BitVec.and_self]
  exact BitVec.or_zero

/-- A mask of one bit. -/
theorem and_twoPow_cases (d : Word) (i : Nat) : d &&& BitVec.twoPow 32 i = 0 ∨ d &&& BitVec.twoPow 32 i = BitVec.twoPow 32 i := by
  rw [BitVec.and_twoPow]
  split
  · exact .inr rfl
  · exact .inl rfl

/-- Settles O21: the value read is the register's word, its flags and its drawn bits kept apart by masks. -/
theorem rawAndEnableStatusShowTheTrackedBits : Obligations.RawAndEnableStatusShowTheTrackedBits := by
  intro s x u
  refine ⟨⟨_, readStmt_of_ok (r := .icRawIntrStat u) rfl x, ?_, rawIntrStatWord_txAbrt _ _, ?_, ?_⟩,
    _, readStmt_of_ok (r := .icEnableStatus u) rfl x, ?_, ?_, ?_⟩
  · simp [rawIntrStatWord_eq, getElem_bit]
  · rw [← and_not_lowMask (by decide), rawIntrStatWord_eq, BitVec.or_assoc, and_drop_draw (by decide)]
    cases (s.unit u).rdReq <;> cases (s.unit u).txAbrt <;> decide
  · rw [rawIntrStatWord_eq, BitVec.or_assoc]
    exact and_keep_draw (by cases (s.unit u).rdReq <;> cases (s.unit u).txAbrt <;> decide) _
  · simp [enableStatusWord_eq, getElem_bit, enabled_eq]
  · rw [enableStatusWord_eq, BitVec.or_comm]
    exact and_keep_draw (by cases (s.unit u).enabled <;> decide) _
  · rw [← and_not_lowMask (by decide), enableStatusWord_eq, BitVec.or_comm, and_drop_draw (by decide)]
    cases (s.unit u).enabled <;> decide

theorem readStmt_of_error {r : Reg} {s : State} {f : Fault} (hs : s.fault = .none) (h : readReg r s = .error f)
    (x : Option Var) : readStmt x r s = .next (s.setFault f) := by
  rw [readStmt, onRead_error h, raise_of_none hs]

theorem popData_of_disabled {u : UnitId} {s : State} (h : (s.unit u).enabled = false) : popData u s = .error (.unitDisabled u) :=
  if_pos h

theorem popData_of_nil {u : UnitId} {s : State} (hen : (s.unit u).enabled = true) (hrx : (s.unit u).rxf = []) :
    popData u s = .error (.rxUnderflow u) := by
  simp [popData, hen, hrx]

/-- Settles O23: the three answers of `popData`. -/
theorem dataReadPopsTheOldestByte : Obligations.DataReadPopsTheOldestByte := by
  intro s x u
  refine ⟨fun b rest hen hrx => ⟨dataCmdWord b (s.draw 0), ?_, ?_⟩, fun hs hen => ?_, fun hs hen hrx => ?_⟩
  · have hmask : (0x800 : Word) = BitVec.twoPow 32 11 := by decide
    rw [dataCmdWord_eq, hmask]
    obtain h | h := and_twoPow_cases (s.draw 0) 11
    · exact .inl (by rw [h]; exact BitVec.or_zero)
    · exact .inr (by rw [h])
  · have hpop := popData_of_cons hen hrx
    rw [UnitState.popRx, hrx, List.tail_cons] at hpop
    exact readStmt_of_ok (r := .icDataCmd u) hpop x
  · exact readStmt_of_error (r := .icDataCmd u) hs (popData_of_disabled hen) x
  · exact readStmt_of_error (r := .icDataCmd u) hs (popData_of_nil hen hrx) x

/-- Settles O24: a clear register's value is bit 0 of the draw. -/
theorem clearReadsClearTheirFlags : Obligations.ClearReadsClearTheirFlags := by
  intro s x u
  have hbit : s.draw 0 &&& 1 = 0 ∨ s.draw 0 &&& 1 = 1 := and_twoPow_cases (s.draw 0) 0
  refine ⟨⟨clearWord .clrRdReq (s.draw 0), ?_, readStmt_of_ok (r := .icClrRdReq u) rfl x⟩,
    clearWord .clrTxAbrt (s.draw 0), ?_, readStmt_of_ok (r := .icClrTxAbrt u) rfl x⟩
  · rw [clearWord, fieldMask_clrRdReq]; exact hbit
  · rw [clearWord, fieldMask_clrTxAbrt]; exact hbit

/-! ## Stored words (40_register_access.md R154, R155) -/

/-- A statement that writes a value of the pattern takes the fault of the register's own checks. -/
theorem writeStmt_of_error {r : Reg} {v : Word} {s : State} {f : Fault} (hs : s.fault = .none) (hw : r.writable = true)
    (hv : r.admitsValue v = true) (h : storeReg r v s = .error f) : writeStmt r v s = .next (s.setFault f) := by
  rw [writeStmt, onWrite_error ((writeReg_of_admitted hw hv s).trans h), raise_of_none hs]

theorem writeConfig_of_disabled {u : UnitId} {s : State} (h : (s.unit u).enabled = false) (r : Reg) (un : UnitState) :
    writeConfig u r un s = .ok (s.setUnit u un) := if_neg (by simp [h])

theorem writeConfig_of_enabled {u : UnitId} {s : State} (h : (s.unit u).enabled = true) (r : Reg) (un : UnitState) :
    writeConfig u r un s = .error (.cfgWhileEnabled u r) := if_pos h

/-- Settles O25: the pattern is checked first, then `writeConfig` looks at ENABLE. -/
theorem configurationWritesNeedADisabledUnit : Obligations.ConfigurationWritesNeedADisabledUnit := by
  intro s u v
  refine ⟨fun hoff => ⟨fun hv => ⟨?_, ?_⟩, fun hv => ?_⟩, fun hs hen => ⟨fun hv => ⟨?_, ?_⟩, fun hv => ?_⟩,
    fun hs => ⟨fun hv => ⟨?_, ?_⟩, fun hv => ?_⟩⟩
  · exact writeStmt_of_admitted rfl ((admitsValue_icCon u v).2 hv) (writeConfig_of_disabled hoff _ _)
  · exact writeStmt_of_admitted rfl ((admitsValue_icSar u v).2 hv) (writeConfig_of_disabled hoff _ _)
  · exact writeStmt_of_admitted rfl ((admitsValue_icTar u v).2 hv) (writeConfig_of_disabled hoff _ _)
  · exact writeStmt_of_error hs rfl ((admitsValue_icCon u v).2 hv) (writeConfig_of_enabled hen _ _)
  · exact writeStmt_of_error hs rfl ((admitsValue_icSar u v).2 hv) (writeConfig_of_enabled hen _ _)
  · exact writeStmt_of_error hs rfl ((admitsValue_icTar u v).2 hv) (writeConfig_of_enabled hen _ _)
  · exact writeStmt_of_not_admitted hs (mt (admitsValue_icCon u v).1 hv)
  · exact writeStmt_of_not_admitted hs (mt (admitsValue_icSar u v).1 hv)
  · exact writeStmt_of_not_admitted hs (mt (admitsValue_icTar u v).1 hv)

/-- Settles O26: these registers have no check but their pattern. -/
theorem pinAndOutputWritesStore : Obligations.PinAndOutputWritesStore := by
  intro s n v
  refine ⟨fun hv => ?_, fun hv => ?_, fun hv => ⟨?_, ?_⟩, fun hs => ⟨fun hv => ?_, fun hv => ?_, fun hv => ⟨?_, ?_⟩⟩⟩
  · exact writeStmt_of_admitted rfl ((admitsValue_pad n v).2 hv) rfl
  · exact writeStmt_of_admitted rfl ((admitsValue_ctrl n v).2 hv) rfl
  · exact writeStmt_of_admitted rfl ((admitsValue_gpioOut v).2 hv) rfl
  · exact writeStmt_of_admitted rfl ((admitsValue_gpioOe v).2 hv) rfl
  · exact writeStmt_of_not_admitted hs (mt (admitsValue_pad n v).1 hv)
  · exact writeStmt_of_not_admitted hs (mt (admitsValue_ctrl n v).1 hv)
  · exact writeStmt_of_not_admitted hs (mt (admitsValue_gpioOut v).1 hv)
  · exact writeStmt_of_not_admitted hs (mt (admitsValue_gpioOe v).1 hv)

/-! ## Command words (40_register_access.md R156) -/

/-- A statement that writes a command word whose push goes through. -/
theorem writeStmt_commandWord {u : UnitId} {f : CommandForm} {b : Byte} {s t : State}
    (h : pushCommand u (commandWord f b) s = .ok t) : writeStmt (.icDataCmd u) (commandWord f b) s = .next t.finish :=
  onWrite_ok ((writeReg_icDataCmd_commandWord u f b s).trans h) _

/-- Settles O28: the push goes through, and the record of a command word is its byte with its form's bits. -/
theorem commandWordsArePushed : Obligations.CommandWordsArePushed := by
  intro s u b hen
  refine ⟨fun hrole habrt htx hphase => ?_, fun hrole hroom => ?_⟩
  · have hpush {f : CommandForm} (hf : formAdmitted .controller (some f) = true) :=
      pushCommand_of_controller (v := commandWord f b) hen hrole (by rw [commandForm_commandWord]; exact hf) habrt htx
        (Phase.reading_eq_false hphase)
    simp only [cmdOf_commandWord] at hpush
    exact ⟨writeStmt_commandWord (hpush (f := .cw) rfl), writeStmt_commandWord (hpush (f := .cr) rfl)⟩
  · have hpush := pushCommand_of_target (v := commandWord .td b) hen hrole (by rw [commandForm_commandWord]; rfl) hroom
    rw [cmdOf_commandWord] at hpush
    exact writeStmt_commandWord hpush

/-- The forms of each role (30_encoding.md R115). -/
theorem formAdmitted_iff {r : Role} {v : Word} :
    formAdmitted r (commandForm v) = true ↔
      r = .controller ∧ (v >>> 8 = 2 ∨ v >>> 8 = 3) ∨ r = .target ∧ v >>> 8 = 0 := by
  rw [← commandForm_cw, ← commandForm_cr, ← commandForm_td]
  cases hf : commandForm v with
  | none => cases r <;> simp [formAdmitted]
  | some f => cases f <;> cases r <;> simp [formAdmitted]

/-- `write` of a value is one write of it. -/
theorem exec_write_value {s : State} {e : Expr} {v : Word} (he : evalWord s.vars e = .ok v) (r : Reg) (x : Option Var) :
    exec (.write r (.value e) x) s = onWrite r v s fun t => t.retNone x := by
  simp only [exec, execWrite, he, withOperand_ok]

/-- `write` of a value whose write faults. -/
theorem exec_write_value_of_error {s : State} {e : Expr} {v : Word} {r : Reg} {f : Fault} (hs : s.fault = .none)
    (he : evalWord s.vars e = .ok v) (h : writeReg r v s = .error f) (x : Option Var) :
    exec (.write r (.value e) x) s = .next (s.setFault f) := by
  rw [exec_write_value he, onWrite_error h, raise_of_none hs]

theorem writeReg_of_not_admitted {r : Reg} {v : Word} (h : r.writable = true → ¬ r.admitsValue v = true) (s : State) :
    writeReg r v s = .error (.unadmitted r.addr) := if_neg fun hc => h hc.1 hc.2

section Push

variable {u : UnitId} {v : Word} {s : State} (hen : (s.unit u).enabled = true)
  (hform : formAdmitted (s.unit u).role (commandForm v) = true)
include hen hform

theorem pushCommand_of_abort (hrole : (s.unit u).role = .controller) (habrt : (s.unit u).txAbrt = true) :
    pushCommand u v s = .error (.writeWhileAborted u) := by
  rw [hrole] at hform
  simp [pushCommand, hen, hform, hrole, habrt]

theorem pushCommand_of_overlap (hrole : (s.unit u).role = .controller) (habrt : (s.unit u).txAbrt = false)
    (hbusy : 0 < (s.unit u).txf.length ∨ s.phase.reading u = true) : pushCommand u v s = .error (.overlappedTransaction u) := by
  rw [hrole] at hform
  simp only [pushCommand, hen, hform, hrole, habrt]
  simp [hbusy]

theorem pushCommand_of_full (hrole : (s.unit u).role = .target) (hfull : (s.unit u).txf.length = Config.fifoDepth) :
    pushCommand u v s = .error (.txOverflow u) := by
  rw [hrole] at hform
  simp [pushCommand, hen, hform, hrole, hfull]

end Push

/-- Settles O29: the reserved bits are the pattern of the register; behind it come the checks of the push, one after the other. -/
theorem commandChecksComeInOrder : Obligations.CommandChecksComeInOrder := by
  intro s u x e v hs he
  have hfault {f : Fault} (hv : v >>> 12 = 0) (h : pushCommand u v s = .error f) :
      exec (.write (.icDataCmd u) (.value e) x) s = .next (s.setFault f) :=
    exec_write_value_of_error hs he ((writeReg_of_admitted rfl ((admitsValue_icDataCmd u v).2 hv) s).trans h) x
  refine ⟨fun hv => ?_, fun hv hoff => hfault hv (pushCommand_of_disabled hoff), fun hv hen =>
    ⟨fun hctrl htgt => ?_, fun hrole hcmd => ⟨fun habrt => ?_, fun habrt hbusy => ?_⟩, fun hrole hcmd hfull => ?_⟩⟩
  · exact exec_write_value_of_error hs he (writeReg_of_not_admitted (fun _ => mt (admitsValue_icDataCmd u v).1 hv) s) x
  · exact hfault hv (pushCommand_of_form hen (Bool.eq_false_iff.2 fun h => (formAdmitted_iff.1 h).elim hctrl htgt))
  · exact hfault hv (pushCommand_of_abort hen (formAdmitted_iff.2 (.inl ⟨hrole, hcmd⟩)) hrole habrt)
  · refine hfault hv (pushCommand_of_overlap hen (formAdmitted_iff.2 (.inl ⟨hrole, hcmd⟩)) hrole habrt ?_)
    refine hbusy.imp List.length_pos_iff.2 ?_
    rintro ⟨t, ht⟩
    rw [ht, Phase.reading_readPending]
  · exact hfault hv (pushCommand_of_full hen (formAdmitted_iff.2 (.inr ⟨hrole, hcmd⟩)) hrole hfull)

/-! ## The configuration that the enabling write admits (40_register_access.md R160) -/

/-- A field of one bit. -/
theorem getField_eq_bit {f : Field} (hf : fieldWidth f = 1) (w : Word) : getField f w = bit (w.getLsbD (fieldBits f).2) := by
  have hmask : lowMask (fieldWidth f) = 1 := by rw [hf]; decide
  have hbit : w >>> (fieldBits f).2 &&& 1 = (BitVec.ofBool ((w >>> (fieldBits f).2).getLsbD 0)).setWidth 32 :=
    BitVec.and_one_eq_setWidth_ofBool_getLsbD
  rw [getField, hmask, hbit, BitVec.getLsbD_ushiftRight, Nat.add_zero]
  cases w.getLsbD (fieldBits f).2 <;> rfl

theorem bit_eq_one {b : Bool} : bit b = 1 ↔ b = true := by cases b <;> decide
theorem bit_eq_zero {b : Bool} : bit b = 0 ↔ b = false := by cases b <;> decide

theorem getField_eq_one {f : Field} (hf : fieldWidth f = 1) {w : Word} : getField f w = 1 ↔ w.getLsbD (fieldBits f).2 = true := by
  rw [getField_eq_bit hf, bit_eq_one]

theorem getField_eq_zero {f : Field} (hf : fieldWidth f = 1) {w : Word} : getField f w = 0 ↔ w.getLsbD (fieldBits f).2 = false := by
  rw [getField_eq_bit hf, bit_eq_zero]

/-- A bit is clear. -/
theorem and_twoPow_eq_zero {w : Word} {i : Nat} (hi : i < 32) : w &&& BitVec.twoPow 32 i = 0 ↔ w.getLsbD i = false := by
  have hne : BitVec.twoPow 32 i ≠ 0 := fun h => by
    have hbit := congrArg (BitVec.getLsbD · i) h
    simp [hi] at hbit
  rw [BitVec.and_twoPow]
  split
  · next h => exact iff_of_false hne (by simp only [h]; decide)
  · next h => exact iff_of_true rfl (Bool.eq_false_iff.2 h)

/-- The bits of two masks are clear. -/
theorem and_or_eq_zero {w a b : Word} : w &&& (a ||| b) = 0 ↔ w &&& a = 0 ∧ w &&& b = 0 := by
  rw [BitVec.and_or_distrib_left]
  exact BitVec.or_eq_zero_iff

theorem conBitsLegal_iff {con : Word} : conBitsLegal con = true ↔ con &&& 0x398 = 0 := by
  have hmask : (0x398 : Word) = BitVec.twoPow 32 3 ||| (BitVec.twoPow 32 4 ||| (BitVec.twoPow 32 7 |||
    (BitVec.twoPow 32 8 ||| BitVec.twoPow 32 9))) := by decide
  rw [hmask, and_or_eq_zero, and_or_eq_zero, and_or_eq_zero, and_or_eq_zero, and_twoPow_eq_zero (by decide),
    and_twoPow_eq_zero (by decide), and_twoPow_eq_zero (by decide), and_twoPow_eq_zero (by decide),
    and_twoPow_eq_zero (by decide), conBitsLegal_eq, Bool.not_eq_true', Bool.or_eq_false_iff, Bool.or_eq_false_iff,
    Bool.or_eq_false_iff, Bool.or_eq_false_iff, and_assoc, and_assoc, and_assoc]

/-- Bits 9:7 of an address field. -/
theorem shiftRight7_and_eq_zero {w : Word} : w >>> 7 &&& 0x7 = 0 ↔ w &&& 0x380 = 0 := by
  have hlow : (0x7 : Word) = BitVec.twoPow 32 0 ||| (BitVec.twoPow 32 1 ||| BitVec.twoPow 32 2) := by decide
  have hhigh : (0x380 : Word) = BitVec.twoPow 32 7 ||| (BitVec.twoPow 32 8 ||| BitVec.twoPow 32 9) := by decide
  rw [hlow, hhigh]
  simp only [and_or_eq_zero, and_twoPow_eq_zero (show 0 < 32 by decide), and_twoPow_eq_zero (show 1 < 32 by decide),
    and_twoPow_eq_zero (show 2 < 32 by decide), and_twoPow_eq_zero (show 7 < 32 by decide),
    and_twoPow_eq_zero (show 8 < 32 by decide), and_twoPow_eq_zero (show 9 < 32 by decide), BitVec.getLsbD_ushiftRight]

/-- The addresses that are not reserved (40_register_access.md R160). -/
theorem reserved7_eq_false {x : Word} : reserved7 x = false ↔ 0x08 ≤ x ∧ x ≤ 0x77 := by
  rw [reserved7, Bool.or_eq_false_iff, decide_eq_false_iff_not, decide_eq_false_iff_not]
  constructor <;> intro h <;> constructor <;> bv_omega

/-- The registers whose address field a unit uses in the role that IC_CON asks for. -/
def UnitState.addressReg (un : UnitState) : Word := if un.icCon.getLsbD 0 then un.icTar else un.icSar

/-- A legal configuration, in bits. -/
structure ConfigBits (un : UnitState) : Prop where
  role : un.icCon.getLsbD 0 = un.icCon.getLsbD 6
  con : un.icCon &&& 0x398 = 0
  high : un.addressReg &&& 0x380 = 0
  low : 0x08 ≤ un.addressReg &&& 0x7F
  up : un.addressReg &&& 0x7F ≤ 0x77
  special : un.icCon.getLsbD 0 = true → un.addressReg.getLsbD 11 = false

theorem addressLegal_tar {w : Word} :
    addressLegal (getField .tarAddress w) = true ↔ w &&& 0x380 = 0 ∧ 0x08 ≤ w &&& 0x7F ∧ w &&& 0x7F ≤ 0x77 := by
  rw [addressLegal, getField_tarAddress_high, getField_tarAddress_and, Bool.and_eq_true, beq_iff_eq, Bool.not_eq_true',
    shiftRight7_and_eq_zero, reserved7_eq_false]

theorem addressLegal_sar {w : Word} :
    addressLegal (getField .sarAddress w) = true ↔ w &&& 0x380 = 0 ∧ 0x08 ≤ w &&& 0x7F ∧ w &&& 0x7F ≤ 0x77 := addressLegal_tar

/-- The role that IC_CON asks for is read from bits 0 and 6 (10_state.md R47). -/
theorem requestedRole_eq (con : Word) :
    requestedRole con =
      if con.getLsbD 0 = con.getLsbD 6 then (if con.getLsbD 0 then .controller else .target) else .none := by
  have hm : getField .masterMode con = bit (con.getLsbD 0) := getField_eq_bit rfl con
  have hs : getField .icSlaveDisable con = bit (con.getLsbD 6) := getField_eq_bit rfl con
  rw [requestedRole, hm, hs]
  cases con.getLsbD 0 <;> cases con.getLsbD 6 <;> rfl

theorem addressReg_of_true {un : UnitState} (h : un.icCon.getLsbD 0 = true) : un.addressReg = un.icTar := if_pos h

theorem addressReg_of_false {un : UnitState} (h : un.icCon.getLsbD 0 = false) : un.addressReg = un.icSar :=
  if_neg (by rw [h]; exact Bool.false_ne_true)

theorem requestedRole_of_true {con : Word} (h0 : con.getLsbD 0 = true) (h : con.getLsbD 0 = con.getLsbD 6) :
    requestedRole con = .controller := by rw [requestedRole_eq, if_pos h, if_pos h0]

theorem requestedRole_of_false {con : Word} (h0 : con.getLsbD 0 = false) (h : con.getLsbD 0 = con.getLsbD 6) :
    requestedRole con = .target := by rw [requestedRole_eq, if_pos h, if_neg (by rw [h0]; exact Bool.false_ne_true)]

theorem configLegal_iff {un : UnitState} : un.configLegal = true ↔ ConfigBits un := by
  unfold UnitState.configLegal
  by_cases hrole : un.icCon.getLsbD 0 = un.icCon.getLsbD 6
  · cases h0 : un.icCon.getLsbD 0 with
    | true =>
      have hreg := addressReg_of_true h0
      have hspecial : getField .special un.icTar = 0 ↔ un.icTar.getLsbD 11 = false := getField_eq_zero rfl
      simp only [requestedRole_of_true h0 hrole, Bool.and_eq_true, beq_iff_eq, conBitsLegal_iff, addressLegal_tar, hspecial]
      constructor
      · rintro ⟨⟨hcon, hhigh, hlow, hup⟩, hsp⟩
        exact ⟨hrole, hcon, hreg ▸ hhigh, hreg ▸ hlow, hreg ▸ hup, fun _ => hreg ▸ hsp⟩
      · rintro ⟨-, hcon, hhigh, hlow, hup, hsp⟩
        rw [hreg] at hhigh hlow hup hsp
        exact ⟨⟨hcon, hhigh, hlow, hup⟩, hsp h0⟩
    | false =>
      have hreg := addressReg_of_false h0
      simp only [requestedRole_of_false h0 hrole, Bool.and_eq_true, conBitsLegal_iff, addressLegal_sar]
      constructor
      · rintro ⟨hcon, hhigh, hlow, hup⟩
        exact ⟨hrole, hcon, hreg ▸ hhigh, hreg ▸ hlow, hreg ▸ hup, fun h => by cases h0.symm.trans h⟩
      · rintro ⟨-, hcon, hhigh, hlow, hup, -⟩
        rw [hreg] at hhigh hlow hup
        exact ⟨hcon, hhigh, hlow, hup⟩
  · have hnone : requestedRole un.icCon = .none := by rw [requestedRole_eq, if_neg hrole]
    simp only [hnone]
    exact iff_of_false Bool.false_ne_true fun h => hrole h.role

/-- `pinsReady(u)` (45_i2c_bus_engine.md R271). -/
theorem pinsReady_iff {s : State} {u : UnitId} :
    s.pinsReady u = true ↔ s.pinRole (s.board.sdaPin u) = .i2c u .sda ∧ s.pinRole (s.board.sclPin u) = .i2c u .scl := by
  simp [State.pinsReady, State.carries, Board.linePin]

/-! ## IC_ENABLE (40_register_access.md R160) -/

theorem enableUnit_of_legal {u : UnitId} {v : Word} {s : State} (hlegal : (s.unit u).configLegal = true)
    (hpins : s.pinsReady u = true) :
    enableUnit u v s = .ok (s.setUnit u { s.unit u with role := requestedRole (s.unit u).icCon, icEnable := v }) := by
  simp [enableUnit, hlegal, hpins]

theorem writeEnable_of_rise {u : UnitId} {v : Word} {s : State} (hoff : (s.unit u).enabled = false)
    (hv : getFlag .enable v = true) : writeEnable u v s = enableUnit u v s := by
  simp only [writeEnable, hoff, hv]

theorem writeEnable_of_fall {u : UnitId} {v : Word} {s : State} (hen : (s.unit u).enabled = true)
    (hv : getFlag .enable v = false) : writeEnable u v s = disableUnit u v s := by
  simp only [writeEnable, hen, hv]

theorem writeEnable_of_same {u : UnitId} {v : Word} {s : State} (h : (s.unit u).enabled = getFlag .enable v) :
    writeEnable u v s = .ok s := by
  unfold writeEnable
  rw [← h]
  cases (s.unit u).enabled <;> rfl

/-- The enabling write with a legal configuration and ready pins. -/
theorem exec_writeIcEnable_one {s : State} {u : UnitId} (hoff : (s.unit u).enabled = false) (hlegal : (s.unit u).configLegal = true)
    (hpins : s.pinsReady u = true) :
    exec (.writeIcEnable u 1) s =
      .next (s.setUnit u { s.unit u with role := requestedRole (s.unit u).icCon, icEnable := 1 }).finish :=
  writeStmt_of_admitted rfl ((admitsValue_icEnable u 1).2 (by decide))
    ((writeEnable_of_rise hoff (by decide)).trans (enableUnit_of_legal hlegal hpins))

/-- Settles O30: the bits named are those of a legal configuration, and bit 0 with bit 6 of IC_CON choose the role. -/
theorem enableLatchesTheRole : Obligations.EnableLatchesTheRole := by
  intro s u hoff hcon hsda hscl
  have hpins := pinsReady_iff.2 ⟨hsda, hscl⟩
  refine ⟨fun h0 h6 hsp hhigh hlow hup => ?_, fun h0 h6 hhigh hlow hup => ?_⟩
  · have hreg := addressReg_of_true h0
    have hbits : ConfigBits (s.unit u) :=
      ⟨h0.trans h6.symm, hcon, hreg ▸ hhigh, hreg ▸ hlow, hreg ▸ hup, fun _ => hreg ▸ hsp⟩
    rw [exec_writeIcEnable_one hoff (configLegal_iff.2 hbits) hpins, requestedRole_of_true h0 hbits.role]
  · have hreg := addressReg_of_false h0
    have hbits : ConfigBits (s.unit u) :=
      ⟨h0.trans h6.symm, hcon, hreg ▸ hhigh, hreg ▸ hlow, hreg ▸ hup, fun h => by cases h0.symm.trans h⟩
    rw [exec_writeIcEnable_one hoff (configLegal_iff.2 hbits) hpins, requestedRole_of_false h0 hbits.role]

/-- Settles O31: `legal` is `ConfigBits`, and `enableUnit` checks it before the pins. -/
theorem enableChecksComeInOrder : Obligations.EnableChecksComeInOrder := by
  intro s u hs hoff con a legal
  have hlegal : (s.unit u).configLegal = true ↔ legal :=
    configLegal_iff.trans ⟨fun ⟨h1, h2, h3, h4, h5, h6⟩ => ⟨h1, h2, h3, h4, h5, h6⟩,
      fun ⟨h1, h2, h3, h4, h5, h6⟩ => ⟨h1, h2, h3, h4, h5, h6⟩⟩
  have hfault {f : Fault} (h : enableUnit u 1 s = .error f) : exec (.writeIcEnable u 1) s = .next (s.setFault f) :=
    writeStmt_of_error hs rfl ((admitsValue_icEnable u 1).2 (by decide)) ((writeEnable_of_rise hoff (by decide)).trans h)
  refine ⟨fun h => hfault ?_, fun h hpins => hfault ?_⟩
  · exact if_pos (Bool.eq_false_iff.2 (mt hlegal.1 h))
  · have hready : s.pinsReady u = false := Bool.eq_false_iff.2 (mt pinsReady_iff.1 hpins)
    simp [enableUnit, hlegal.2 h, hready]

theorem Phase.names_iff {p : Phase} {u : UnitId} : p.names u = true ↔ ∃ c t, p = .readPending c t ∧ (u = c ∨ u = t) := by
  cases p with
  | idle => exact iff_of_false Bool.false_ne_true fun ⟨c, t, h, _⟩ => by cases h
  | readPending c t =>
    rw [Phase.names, Bool.or_eq_true, beq_iff_eq, beq_iff_eq]
    exact ⟨fun h => ⟨c, t, rfl, h⟩, fun ⟨_, _, hp, h⟩ => by cases hp; exact h⟩

theorem disableUnit_of_idle {u : UnitId} {v : Word} {s : State} (hnames : s.phase.names u = false) (htx : (s.unit u).txf = []) :
    disableUnit u v s = .ok ((s.setUnit u { s.unit u with
      txf := [], rxf := [], txAbrt := (s.draw 0).getLsbD 0, rdReq := (s.draw 1).getLsbD 0, abrtSrc := s.draw 2,
      role := .none, icEnable := v }).drew 3) := by
  simp [disableUnit, hnames, htx]

theorem disableUnit_of_busy {u : UnitId} {v : Word} {s : State} (h : (s.unit u).txf ≠ [] ∨ s.phase.names u = true) :
    disableUnit u v s = .error (.disableActive u) := by
  unfold disableUnit
  split
  · rfl
  · next hnames => rw [if_pos (List.length_pos_iff.2 (h.resolve_right hnames))]

/-- No pending read names a unit that differs from both of each. -/
theorem Phase.names_of_ne {p : Phase} {u : UnitId} (h : ∀ c t, p = .readPending c t → u ≠ c ∧ u ≠ t) : p.names u = false :=
  Bool.eq_false_iff.2 fun hn => by
    obtain ⟨c, t, hp, hu⟩ := Phase.names_iff.1 hn
    exact hu.elim (h c t hp).1 (h c t hp).2

/-- Settles O32: `disableUnit` looks for work pending, a queued command or a pending read that names the unit. -/
theorem disableFlushesAnIdleUnit : Obligations.DisableFlushesAnIdleUnit := by
  intro s u hen
  have hv : (Reg.icEnable u).admitsValue 0 = true := (admitsValue_icEnable u 0).2 (by decide)
  refine ⟨fun htx hphase => ⟨_, _, _, writeStmt_of_admitted rfl hv ((writeEnable_of_fall hen (by decide)).trans
    (disableUnit_of_idle (Phase.names_of_ne hphase) htx))⟩, fun hs hbusy => writeStmt_of_error hs rfl hv
      ((writeEnable_of_fall hen (by decide)).trans (disableUnit_of_busy (hbusy.imp_right Phase.names_iff.2)))⟩

/-- Settles O33: `writeEnable` acts on a change of bit 0 alone, behind the pattern. -/
theorem enableWriteWithoutAChange : Obligations.EnableWriteWithoutAChange := fun _ u v =>
  ⟨fun hv hsame => writeStmt_of_admitted rfl ((admitsValue_icEnable u v).2 hv) (writeEnable_of_same hsame),
    fun hs hv => writeStmt_of_not_admitted hs (mt (admitsValue_icEnable u v).1 hv)⟩

end Machine
end Sys2Proof
end

section
/-! The access layer (40_register_access.md R151, R152), the pin predicates (41_pin_configuration.md R170; 45_i2c_bus_engine.md R271),
the argument checks and `requestByteFromMemory` (43_i2c_controller.md R214). -/

namespace Sys2Proof
namespace Machine

/-! ## `write` (40_register_access.md R151) -/

/-- Finished statements tell their states apart, but for the program counter. -/
theorem State.finish_inj {s t : State} (h : s.finish = t.finish) (hpc : s.pc = t.pc) : s = t := by
  cases s
  cases t
  simp_all [State.finish]

/-- A write statement that ends in `m.finish` has `m` as its effect: it is no fault entry, which would not move `pc`. -/
theorem writeReg_of_writeStmt_finish {r : Reg} {v : Word} {s m : State} (hpc : m.pc = s.pc)
    (h : writeStmt r v s = .next m.finish) : writeReg r v s = .ok m := by
  cases hw : writeReg r v s with
  | ok m' =>
    rw [writeStmt, onWrite_ok hw] at h
    rw [State.finish_inj (Host.Outcome.next.inj h) ((writeReg_sameCpu hw).pc.trans hpc.symm)]
  | error f =>
    rw [writeStmt, onWrite_error hw] at h
    have hmove : m.finish.pc ≠ s.pc := fun hc => by
      have hstmt : m.pc.stmt + 1 = s.pc.stmt := congrArg Pc.stmt hc
      rw [hpc] at hstmt
      omega
    obtain heq | heq := raise_next h
    · exact absurd (congrArg State.pc heq) hmove
    · exact absurd (congrArg State.pc heq) hmove

/-- A refused write is refused by `writeReg` too. -/
theorem writeReg_of_decode_unadmitted {r : Reg} {v : Word} (h : decode (.write r.addr 4 v) = .error (.unadmitted r.addr))
    (s : State) : writeReg r v s = .error (.unadmitted r.addr) := by
  refine writeReg_of_not_admitted (fun hw hv => ?_) s
  rw [decode_write_addr, hw, hv] at h
  cases r with
  | icDataCmd u => cases hc : commandInstr u v <;> simp [writeInstr, hc] at h
  | icRawIntrStat u | icClrRdReq u | icClrTxAbrt u | icStatus u | icTxAbrtSource u | icEnableStatus u => cases hw
  | _ => cases h

/-- A write that decodes is the row of its register. -/
theorem writeInstr_of_decode {r : Reg} {v : Word} {i : Instr} (h : decode (.write r.addr 4 v) = .ok i) :
    writeInstr r.addr v r = .ok i := by
  rw [decode_write_addr] at h
  split at h
  · exact h
  · cases h

/-- Settles O35: `write` of a value and the row it decodes to are the same write of the same register; a field list differs from a
value in its operand alone. -/
theorem writeIsOneAccess : Obligations.WriteIsOneAccess := by
  refine ⟨fun s r e v i he hi => ?_, fun s x r e v hs he hdec => ?_, fun s x r fs ws hw hfs hws => ?_,
    fun s x n e v he hv => ?_⟩
  · rw [(exec_of_writeInstr (writeInstr_of_decode hi) s).1]
    refine ⟨exec_write_value he r none, fun x => ⟨fun m hpc _ h => ?_, fun f hs h => ?_⟩⟩
    · rw [exec_write_value he]
      exact onWrite_ok (writeReg_of_writeStmt_finish hpc h) _
    · rw [exec_write_value he]
      exact onWrite_of_writeStmt_setFault hs h _
  · exact exec_write_value_of_error hs he (writeReg_of_decode_unadmitted hdec s) x
  · rw [exec_write_value (e := .lit (assemble ws)) (v := assemble ws) rfl]
    simp only [exec, execWrite, hw, hfs, hws, withOperand_ok, Bool.true_eq_false, if_false]
  · rw [exec_write_value he]
    exact onWrite_ok (writeReg_of_admitted rfl ((admitsValue_pad n v).2 hv) s) _

/-! ## Fields (40_register_access.md R152) -/

/-- A field lies in the 32 bits of its register. -/
theorem fieldBits_high_lt (f : Field) : (fieldBits f).1 < 32 := by
  cases f with
  | pinBit n => exact Nat.lt_trans n.isLt (by decide)
  | _ => simp

theorem getLsbD_fieldMask (f : Field) {i : Nat} (hi : i < 32) :
    (fieldMask f).getLsbD i = decide ((fieldBits f).2 ≤ i ∧ i ≤ (fieldBits f).1) := by
  have hle := fieldBits_low_le_high f
  have hlt := fieldBits_high_lt f
  have hwidth : fieldWidth f = (fieldBits f).1 - (fieldBits f).2 + 1 := rfl
  rw [fieldMask, BitVec.getLsbD_shiftLeft, getLsbD_lowMask (by omega), decide_eq_true hi, Bool.true_and]
  by_cases hlow : i < (fieldBits f).2
  · have hout : ¬ ((fieldBits f).2 ≤ i ∧ i ≤ (fieldBits f).1) := by omega
    rw [decide_eq_true hlow, decide_eq_false hout, Bool.not_true, Bool.false_and]
  · rw [decide_eq_false hlow, Bool.not_false, Bool.true_and]
    exact decide_eq_decide.2 (by omega)

/-- Settles O37: the mask of the field selects the bits, and an operand that fits is its own value. -/
theorem fieldsKeepTheOtherBits : Obligations.FieldsKeepTheOtherBits := by
  intro f e w i he hi
  have hwidth : fieldWidth f = (fieldBits f).1 - (fieldBits f).2 + 1 := rfl
  rw [insertField, BitVec.getLsbD_or, BitVec.getLsbD_and, BitVec.getLsbD_not, getLsbD_fieldMask f hi,
    BitVec.getLsbD_shiftLeft, decide_eq_true hi, Bool.true_and, Bool.true_and]
  split
  · next hin =>
    rw [decide_eq_true hin, decide_eq_false (Nat.not_lt.2 hin.1), fieldValue, if_pos he, Bool.not_true, Bool.and_false,
      Bool.false_or, Bool.not_false, Bool.true_and]
  · next hout =>
    rw [decide_eq_false hout, Bool.not_false, Bool.and_true]
    by_cases hlow : i < (fieldBits f).2
    · rw [decide_eq_true hlow, Bool.not_true, Bool.false_and, Bool.or_false]
    · have hhigh : (fieldBits f).1 < i := Nat.lt_of_not_le fun h => hout ⟨Nat.le_of_not_lt hlow, h⟩
      have hle := fieldBits_low_le_high f
      have hge : fieldWidth f ≤ i - (fieldBits f).2 := by omega
      rw [getLsbD_fieldValue_of_ge hge, Bool.and_false, Bool.or_false]

/-! ## Pin roles (41_pin_configuration.md R170, R171) -/

/-- What `role(n)` looks at, in bits. -/
theorem pinRole_eq (s : State) (n : Pin) :
    s.pinRole n =
      if (s.pad n).getLsbD 8 = true then .isolated
      else if s.ctrl n &&& 0x1F = 3 ∧ (s.pad n).getLsbD 6 = true ∧ (s.pad n).getLsbD 7 = false then
        .i2c (i2cUnit n.val) (i2cSignal n.val)
      else if s.ctrl n &&& 0x1F = 5 ∧ (s.pad n).getLsbD 7 = false ∧ s.sioOe.getLsbD n.val = true then .digitalOutput
      else if s.ctrl n &&& 0x1F = 5 ∧ (s.pad n).getLsbD 6 = true ∧ s.sioOe.getLsbD n.val = false then .digitalInput
      else .unconfigured := by
  have hiso : getField .iso (s.pad n) = 1 ↔ (s.pad n).getLsbD 8 = true := getField_eq_one rfl
  have hie : getField .ie (s.pad n) = 1 ↔ (s.pad n).getLsbD 6 = true := getField_eq_one rfl
  have hod : getField .od (s.pad n) = 0 ↔ (s.pad n).getLsbD 7 = false := getField_eq_zero rfl
  have hwidth : fieldWidth (.pinBit n) = 1 := by simp [fieldWidth]
  have hon : getField (.pinBit n) s.sioOe = 1 ↔ s.sioOe.getLsbD n.val = true := getField_eq_one hwidth
  have hoff : getField (.pinBit n) s.sioOe = 0 ↔ s.sioOe.getLsbD n.val = false := getField_eq_zero hwidth
  have hmask : lowMask (fieldWidth .funcsel) = 0x1F := by decide
  have hfunc : getField .funcsel (s.ctrl n) = s.ctrl n &&& 0x1F := by rw [getField, hmask]; simp
  simp only [State.pinRole, hiso, hie, hod, hon, hoff, hfunc]

/-- The unit of a pin is bit 1 of its index. -/
theorem i2cUnit_eq {n : Pin} {u : UnitId} : i2cUnit n.val = u ↔ u.val = (n.val >>> 1) &&& 1 := by
  revert n u
  decide

theorem i2cSignal_eq {n : Pin} {sig : Signal} : i2cSignal n.val = sig ↔ (sig = .sda ↔ n.val % 2 = 0) := by
  cases sig <;> unfold i2cSignal <;> split <;> simp_all

theorem pulled_iff {s : State} {sig : Signal} :
    s.pulled sig = true ↔ s.board.externalPullups = true ∨
      ∃ u, s.pinRole (s.board.linePin sig u) = .i2c u sig ∧ (s.pad (s.board.linePin sig u)).getLsbD 3 = true := by
  have hpue (w : Word) : getField .pue w = 1 ↔ w.getLsbD 3 = true := getField_eq_one rfl
  simp only [State.pulled, State.carries, Bool.or_eq_true, List.any_cons, List.any_nil, Bool.or_false, Bool.and_eq_true,
    beq_iff_eq, hpue, Fin.exists_fin_two]

/-- Settles O39: each clause reads `pinRole_eq`, whose conditions exclude each other; the bus is up by `pinsReady_iff` and
`pulled_iff`. -/
theorem pinRolesAndBusUpExactlyWhen : Obligations.PinRolesAndBusUpExactlyWhen := by
  refine ⟨fun s n => ?_, fun s c => ?_⟩
  · rw [pinRole_eq]
    generalize (s.pad n).getLsbD 8 = iso, (s.pad n).getLsbD 6 = ie, (s.pad n).getLsbD 7 = od, s.sioOe.getLsbD n.val = oe,
      s.ctrl n &&& 0x1F = func
    split
    · next hiso => simp [hiso]
    next hiso =>
    split
    · next hi2c => simp [hiso, hi2c, i2cUnit_eq, i2cSignal_eq]
    next hi2c =>
    split
    · next hout => simp [hiso, hout]
    next hout =>
    split
    · next hin => simp_all
    · next hin => simp_all
  · rw [State.busUp, Bool.and_eq_true, Bool.and_eq_true, Bool.and_eq_true, pinsReady_iff, pulled_iff, pulled_iff]
    simp only [Board.linePin, and_assoc]

/-! ## Argument checks (60_exceptions.md R314) -/

theorem withPin_of_ge {w : Word} {s : State} (h : 30 ≤ w.toNat) (k : Pin → Outcome) : withPin w s k = raise .opArg s :=
  dif_neg (Nat.not_lt.2 h)

theorem withPin_of_lt {n : Pin} (s : State) (k : Pin → Outcome) : withPin (BitVec.ofNat 32 n.val) s k = k n := by
  have hn : (BitVec.ofNat 32 n.val).toNat = n.val := by
    rw [BitVec.toNat_ofNat]
    exact Nat.mod_eq_of_lt (Nat.lt_trans n.isLt (by decide))
  simp [withPin, hn]

theorem withBusAddress_of_ge {a : Word} {s : State} (h : 0x80 ≤ a.toNat) (k : Outcome) : withBusAddress a s k = raise .opArg s :=
  if_neg (Nat.not_lt.2 h)

/-- Settles O42: the check stands before the step that the program counter selects. -/
theorem argumentChecksComeFirst : Obligations.ArgumentChecksComeFirst := by
  intro s x e ep w up hs he hep
  refine ⟨fun h => ⟨?_, ?_⟩, fun h => ⟨?_, ?_⟩⟩
  · simp only [exec, execConfigureDigitalOutputPin, he, withOperand_ok, withPin_of_ge h, raise_of_none hs]
  · simp only [exec, execConfigureSignalPin, he, hep, withOperand_ok, withPin_of_ge h, raise_of_none hs]
  · simp only [exec, execConfigureAsController, he, withOperand_ok, withBusAddress_of_ge h, raise_of_none hs]
  · simp only [exec, execConfigureAsTarget, he, withOperand_ok, withBusAddress_of_ge h, raise_of_none hs]

/-! ## `requestByteFromMemory` (43_i2c_controller.md R214) -/

/-- The word of `requestByteFromMemory` is the CR command of byte 0 (decision D14). -/
theorem assemble_cr : assemble [(.dat, 0), (.cmd, 1), (.stop, 1), (.restart, 0)] = commandWord .cr 0 := by decide

section Request

variable {s : State} (x : Option Var)

theorem exec_requestByteFromMemory_wait (hstep : s.pc.step = 0) :
    exec (.requestByteFromMemory x) s = pollTfnf s.board.ctrlUnit s State.advance := by
  simp only [exec, execRequestByteFromMemory, hstep]

theorem exec_requestByteFromMemory_push (hstep : s.pc.step = 1) :
    exec (.requestByteFromMemory x) s =
      onWrite (.icDataCmd s.board.ctrlUnit) (commandWord .cr 0) s fun t => t.setRequested.retNone x := by
  simp only [exec, execRequestByteFromMemory, hstep, assemble_cr]

end Request

/-- Settles O45: the poll of TFNF, then the push of a CR command, whose faults are those of the write. -/
theorem requestRunsItsSteps : Obligations.RequestRunsItsSteps := by
  intro s x
  refine ⟨fun hstep => ⟨fun hroom => ?_, fun hfull => ?_⟩,
    fun hstep => ⟨fun hen hrole habrt htx hphase => ?_, fun f hs hfault => ?_⟩⟩
  · rw [exec_requestByteFromMemory_wait x hstep, pollTfnf_of_lt hroom]
  · rw [exec_requestByteFromMemory_wait x hstep, pollTfnf_of_ge hfull]
  · have hpush := pushCommand_of_controller (v := commandWord .cr 0) hen hrole (by rw [commandForm_commandWord]; rfl) habrt htx
      (Phase.reading_eq_false hphase)
    rw [cmdOf_commandWord] at hpush
    rw [exec_requestByteFromMemory_push x hstep]
    exact onWrite_ok ((writeReg_icDataCmd_commandWord _ .cr 0 s).trans hpush) _
  · rw [exec_requestByteFromMemory_push x hstep]
    exact onWrite_of_writeStmt_setFault hs hfault _

end Machine
end Sys2Proof
end

section
/-! The pin configuration operations (41_pin_configuration.md R173, R174). -/

namespace Sys2Proof
namespace Machine

/-! ## Field lists as a mask and a word -/

/-- The bits that no field of the list covers. -/
def keptMask : List (Field × Word) → Word
  | [] => BitVec.allOnes 32
  | p :: fs => ~~~fieldMask p.1 &&& keptMask fs

/-- Replacing fields keeps the bits outside them and sets the others to what `assemble` puts there. -/
theorem insertFields_eq (fs : List (Field × Word)) (w : Word) :
    insertFields fs w = (w &&& keptMask fs) ||| assemble fs := by
  induction fs generalizing w with
  | nil => exact (BitVec.or_zero.trans BitVec.and_allOnes).symm
  | cons p fs ih =>
    have hcons (w : Word) : insertFields (p :: fs) w = (insertField p.1 p.2 w &&& keptMask fs) ||| assemble fs := ih _
    have hzero : (0 : Word) &&& ~~~fieldMask p.1 &&& keptMask fs = 0#32 := by rw [BitVec.and_assoc]; exact BitVec.zero_and
    rw [assemble, hcons, hcons, insertField, insertField, BitVec.and_or_distrib_right, BitVec.and_or_distrib_right,
      BitVec.and_assoc, BitVec.or_assoc, keptMask, hzero, BitVec.zero_or]

theorem insertFields_iso_clear (w : Word) : insertFields [(.iso, 0)] w = w &&& 0xFFFFFEFF := by
  have hkept : keptMask [(.iso, 0)] = 0xFFFFFEFF := by decide
  have hword : assemble [(.iso, 0)] = 0 := by decide
  rw [insertFields_eq, hkept, hword]
  exact BitVec.or_zero

/-- A mask on a word without bits from `k` up is its part below `k`. -/
theorem and_mask_of_shiftRight {w : Word} {k : Nat} (hk : k ≤ 32) (hw : w >>> k = 0) (m : Word) :
    w &&& m = w &&& (lowMask k &&& m) := by
  have hlow : w &&& lowMask k = w :=
    and_of_shiftRight_eq_zero hw fun i hi => by rw [getLsbD_lowMask hk, decide_eq_true hi]
  rw [← BitVec.and_assoc, hlow]

/-! ## Chains of steps of one instruction -/

theorem execTimes_succ {i : Instr} {s t : State} {k : Nat} {o : Outcome} (h : exec i s = .next t) (hrest : execTimes k i t = o) :
    execTimes (k + 1) i s = o := by
  rw [execTimes, h]
  exact hrest

theorem modifyRead_pad {s : State} {n : Pin} (h : s.pad n >>> 9 = 0) :
    modifyRead (.pad n) s = .next (s.setLatch (s.pad n)).advance :=
  onRead_ok (by rw [readReg_of_modifiable rfl, State.stored, pad_and_readMask h]) _

theorem onWrite_pad {v : Word} {n : Pin} (h : v >>> 9 = 0) (s : State) (k : State → State) :
    onWrite (.pad n) v s k = .next (k (s.setPad n v)) :=
  onWrite_ok (writeReg_of_admitted rfl ((admitsValue_pad n v).2 h) s) k

theorem onWrite_ctrl {v : Word} {n : Pin} (h : v >>> 5 = 0) (s : State) (k : State → State) :
    onWrite (.ctrl n) v s k = .next (k (s.setCtrl n v)) :=
  onWrite_ok (writeReg_of_admitted rfl ((admitsValue_ctrl n v).2 h) s) k

/-- Every pin has its bit in GPIO_OE. -/
theorem onWrite_gpioOeSet (n : Pin) (s : State) (k : State → State) :
    onWrite .gpioOeSet (1#32 <<< n.val) s k = .next (k (s.setOe (s.sioOe ||| 1#32 <<< n.val))) := by
  have hbit : ∀ n : Pin, (1#32 <<< n.val) >>> 30 = 0 := by decide
  exact onWrite_ok (writeReg_of_admitted rfl ((admitsValue_gpioOeSet _).2 (hbit n)) s) k

theorem State.setPad_setPad (s : State) (n : Pin) (v w : Word) : (s.setPad n v).setPad n w = s.setPad n w := by
  simp only [State.setPad, Vector.set_set]

/-! ## `configureDigitalOutputPin` (41_pin_configuration.md R173) -/

/-- The pad after steps 1-2: DRIVE and ISO are kept, SCHMITT is set. -/
theorem insertFields_digitalPadFields {w : Word} (hw : w >>> 9 = 0) :
    insertFields digitalPadFields w = (w &&& 0x130) ||| 0x02 := by
  have hkept : lowMask 9 &&& keptMask digitalPadFields = 0x130 := by decide
  have hword : assemble digitalPadFields = 0x02 := by decide
  rw [insertFields_eq, and_mask_of_shiftRight (by decide) hw, hkept, hword]

theorem digitalPad_shiftRight {w : Word} (hw : w >>> 9 = 0) (m : Word) : ((w &&& m) ||| 0x02) >>> 9 = 0 :=
  or_shiftRight_eq_zero (and_shiftRight_eq_zero hw m) (by decide)

theorem digitalPad_iso_clear (w : Word) : ((w &&& 0x130) ||| 0x02) &&& 0xFFFFFEFF = (w &&& 0x30) ||| 0x02 := by
  rw [BitVec.and_or_distrib_right, BitVec.and_assoc]
  rfl

/-- A pad with DRIVE and SCHMITT alone, FUNCSEL 5 and the output enable make a digital output. -/
theorem pinRole_digitalOutput {s : State} {n : Pin} {w v : Word} (hpad : s.pad n = (w &&& 0x30) ||| 0x02) (hctrl : s.ctrl n = 5)
    (hoe : s.sioOe = v ||| 1#32 <<< n.val) : s.pinRole n = .digitalOutput := by
  have hiso : (s.pad n).getLsbD 8 = false := by simp [hpad]
  have hod : (s.pad n).getLsbD 7 = false := by simp [hpad]
  have hon : s.sioOe.getLsbD n.val = true := by simp [hoe, Nat.lt_trans n.isLt (by decide : 30 < 32)]
  rw [pinRole_eq, hiso, hod, hon, hctrl]
  simp

section DigitalOutput

variable {s : State} {e : Expr} {n : Pin} {p : Word} (x : Option Var) (he : evalWord s.vars e = .ok (BitVec.ofNat 32 n.val))
include he

theorem exec_configureDigitalOutputPin : exec (.configureDigitalOutputPin e x) s = digitalOutputStep x n s := by
  simp only [exec, execConfigureDigitalOutputPin, he, withOperand_ok, withPin_of_lt]

theorem exec_configureDigitalOutputPin_read (hstep : s.pc.step = 0 ∨ s.pc.step = 3) (hpad : s.pad n = p) (hp : p >>> 9 = 0) :
    exec (.configureDigitalOutputPin e x) s = .next (s.setLatch p).advance := by
  subst hpad
  rw [exec_configureDigitalOutputPin x he, digitalOutputStep, ← modifyRead_pad hp]
  obtain h | h := hstep <;> simp only [h]

theorem exec_configureDigitalOutputPin_pad (hstep : s.pc.step = 1) (hlatch : s.latch = p) (hp : p >>> 9 = 0) :
    exec (.configureDigitalOutputPin e x) s = .next (s.setPad n ((p &&& 0x130) ||| 0x02)).advance := by
  simp only [exec_configureDigitalOutputPin x he, digitalOutputStep, hstep, modifyWrite, hlatch, insertFields_digitalPadFields hp]
  exact onWrite_pad (digitalPad_shiftRight hp _) _ _

theorem exec_configureDigitalOutputPin_funcsel (hstep : s.pc.step = 2) :
    exec (.configureDigitalOutputPin e x) s = .next (s.setCtrl n 5).advance := by
  have hword : assemble [(.funcsel, 5)] = 5 := by decide
  simp only [exec_configureDigitalOutputPin x he, digitalOutputStep, hstep, hword]
  exact onWrite_ctrl (by decide) _ _

theorem exec_configureDigitalOutputPin_iso (hstep : s.pc.step = 4) (hlatch : s.latch = p) (hp : p >>> 9 = 0) :
    exec (.configureDigitalOutputPin e x) s = .next (s.setPad n (p &&& 0xFFFFFEFF)).advance := by
  simp only [exec_configureDigitalOutputPin x he, digitalOutputStep, hstep, modifyWrite, hlatch, insertFields_iso_clear]
  exact onWrite_pad (and_shiftRight_eq_zero hp _) _ _

theorem exec_configureDigitalOutputPin_enable (hstep : s.pc.step = 5) (hoe : s.sioOe = p) :
    exec (.configureDigitalOutputPin e x) s = .next ((s.setOe (p ||| 1#32 <<< n.val)).retNone x) := by
  simp only [exec_configureDigitalOutputPin x he, digitalOutputStep, hstep, ← hoe]
  exact onWrite_gpioOeSet n s _

end DigitalOutput

/-- The writes of the six steps, the program counter moved on. -/
theorem digitalOutput_steps_eq (s : State) (x : Option Var) (n : Pin) (p q r f v : Word) :
    ((((((s.setLatch p).advance.setPad n q).advance.setCtrl n f).advance.setLatch q).advance.setPad n r).advance.setOe v).retNone x =
      ((((s.setPad n r).setCtrl n f).setOe v).setLatch q).retNone x := by
  cases x <;> simp [State.setPad, State.setCtrl, State.setOe, State.setLatch, State.advance, State.retNone, State.noResult,
    State.finish]

/-- Settles O40: the six steps one after another; the second access of the pad reads what the first wrote. -/
theorem configureDigitalOutputPinResult : Obligations.ConfigureDigitalOutputPinResult := by
  intro s x e n hpad hstep he
  have hread := exec_configureDigitalOutputPin_read x he (.inl hstep) rfl hpad
  have hpad' := digitalPad_shiftRight hpad 0x130
  refine ⟨hread, _, ?_, ?_, rfl⟩
  · refine execTimes_succ hread ?_
    refine execTimes_succ (exec_configureDigitalOutputPin_pad (p := s.pad n) x (by simpa using he) (by simp [hstep]) (by simp) hpad) ?_
    refine execTimes_succ (exec_configureDigitalOutputPin_funcsel x (by simpa using he) (by simp [hstep])) ?_
    refine execTimes_succ (exec_configureDigitalOutputPin_read x (by simpa using he) (by simp [hstep]) (by simp) hpad') ?_
    refine execTimes_succ (exec_configureDigitalOutputPin_iso (p := (s.pad n &&& 0x130) ||| 0x02) x (by simpa using he)
      (by simp [hstep]) (by simp) hpad') ?_
    refine execTimes_succ (exec_configureDigitalOutputPin_enable (p := s.sioOe) x (by simpa using he) (by simp [hstep]) (by simp)) ?_
    rw [digitalPad_iso_clear]
    rw [execTimes, digitalOutput_steps_eq]
  · exact pinRole_digitalOutput (w := s.pad n) (v := s.sioOe) (by simp) (by simp) (by simp)

/-! ## `configureSignalPin` (41_pin_configuration.md R174) -/

/-- The pad of a signal pin after steps 1-2, its ISO as it was: `m` is the mask of the bits kept. -/
def signalPad (m w : Word) (up : Bool) : Word := (w &&& m) ||| 0x42#32 ||| bit up <<< 3

theorem insertFields_signalPadFields {w : Word} (hw : w >>> 9 = 0) (up : Bool) :
    insertFields (signalPadFields up) w = signalPad 0x1B1 w up := by
  have hkept : lowMask 9 &&& keptMask (signalPadFields up) = 0x1B1 := by revert up; decide
  have hword : assemble (signalPadFields up) = 0x42#32 ||| bit up <<< 3 := by revert up; decide
  rw [insertFields_eq, and_mask_of_shiftRight (by decide) hw, hkept, hword, signalPad, BitVec.or_assoc]

theorem signalPad_shiftRight {w : Word} (hw : w >>> 9 = 0) (m : Word) (up : Bool) : signalPad m w up >>> 9 = 0 := by
  have hup : bit up <<< 3 >>> 9 = (0 : Word) := by revert up; decide
  exact or_shiftRight_eq_zero (or_shiftRight_eq_zero (and_shiftRight_eq_zero hw m) (by decide)) hup

theorem signalPad_iso_clear (w : Word) (up : Bool) : signalPad 0x1B1 w up &&& 0xFFFFFEFF = signalPad 0xB1 w up := by
  have hword : (0x42#32 ||| bit up <<< 3) &&& (0xFFFFFEFF : Word) = 0x42#32 ||| bit up <<< 3 := by revert up; decide
  rw [signalPad, signalPad, BitVec.or_assoc, BitVec.or_assoc, BitVec.and_or_distrib_right, BitVec.and_assoc, hword]
  rfl

/-- ISO is clear, IE set, PUE the argument, OD as it was. -/
theorem signalPad_bits (w : Word) (up : Bool) :
    (signalPad 0xB1 w up).getLsbD 8 = false ∧ (signalPad 0xB1 w up).getLsbD 6 = true ∧ (signalPad 0xB1 w up).getLsbD 3 = up ∧
      (signalPad 0xB1 w up).getLsbD 7 = w.getLsbD 7 := by
  cases up <;> simp [signalPad, bit]

/-- With FUNCSEL 3 the pin carries its signal unless OD disables it. -/
theorem pinRole_signal {s : State} {n : Pin} {w : Word} {up : Bool} (hpad : s.pad n = signalPad 0xB1 w up) (hctrl : s.ctrl n = 3) :
    s.pinRole n = if w.getLsbD 7 then .unconfigured else .i2c (i2cUnit n.val) (i2cSignal n.val) := by
  obtain ⟨hiso, hie, -, hod⟩ := signalPad_bits w up
  rw [pinRole_eq, hpad, hiso, hie, hod, hctrl]
  cases w.getLsbD 7 <;> simp

section SignalPin

variable {s : State} {e ep : Expr} {n : Pin} {up : Bool} {p : Word} (x : Option Var)
variable (he : evalWord s.vars e = .ok (BitVec.ofNat 32 n.val)) (hep : evalBool s.vars ep = .ok up)
include he hep

theorem exec_configureSignalPin : exec (.configureSignalPin e ep x) s = signalPinStep x n up s := by
  simp only [exec, execConfigureSignalPin, he, hep, withOperand_ok, withPin_of_lt]

theorem exec_configureSignalPin_read (hstep : s.pc.step = 0 ∨ s.pc.step = 3) (hpad : s.pad n = p) (hp : p >>> 9 = 0) :
    exec (.configureSignalPin e ep x) s = .next (s.setLatch p).advance := by
  subst hpad
  rw [exec_configureSignalPin x he hep, signalPinStep, ← modifyRead_pad hp]
  obtain h | h := hstep <;> simp only [h]

theorem exec_configureSignalPin_pad (hstep : s.pc.step = 1) (hlatch : s.latch = p) (hp : p >>> 9 = 0) :
    exec (.configureSignalPin e ep x) s = .next (s.setPad n (signalPad 0x1B1 p up)).advance := by
  simp only [exec_configureSignalPin x he hep, signalPinStep, hstep, modifyWrite, hlatch, insertFields_signalPadFields hp]
  exact onWrite_pad (signalPad_shiftRight hp _ _) _ _

theorem exec_configureSignalPin_funcsel (hstep : s.pc.step = 2) :
    exec (.configureSignalPin e ep x) s = .next (s.setCtrl n 3).advance := by
  have hword : assemble [(.funcsel, 3)] = 3 := by decide
  simp only [exec_configureSignalPin x he hep, signalPinStep, hstep, hword]
  exact onWrite_ctrl (by decide) _ _

theorem exec_configureSignalPin_iso (hstep : s.pc.step = 4) (hlatch : s.latch = p) (hp : p >>> 9 = 0) :
    exec (.configureSignalPin e ep x) s = .next ((s.setPad n (p &&& 0xFFFFFEFF)).retNone x) := by
  simp only [exec_configureSignalPin x he hep, signalPinStep, hstep, modifyWrite, hlatch, insertFields_iso_clear]
  exact onWrite_pad (and_shiftRight_eq_zero hp _) _ _

end SignalPin

/-- The writes of the five steps, the program counter moved on. -/
theorem signalPin_steps_eq (s : State) (x : Option Var) (n : Pin) (p q r f : Word) :
    (((((s.setLatch p).advance.setPad n q).advance.setCtrl n f).advance.setLatch q).advance.setPad n r).retNone x =
      (((s.setPad n r).setCtrl n f).setLatch q).retNone x := by
  rw [← State.setPad_setPad s n q r]
  cases x <;> simp [State.setPad, State.setCtrl, State.setLatch, State.advance, State.retNone, State.noResult, State.finish]

/-- Settles O41: the five steps one after another; the second access of the pad reads what the first wrote. -/
theorem configureSignalPinResult : Obligations.ConfigureSignalPinResult := by
  intro s x e ep n up hpad hstep he hep
  have hread := exec_configureSignalPin_read x he hep (.inl hstep) rfl hpad
  have hpad' := signalPad_shiftRight hpad 0x1B1 up
  have hfinal : ((((s.setPad n (signalPad 0xB1 (s.pad n) up)).setCtrl n 3).setLatch (signalPad 0x1B1 (s.pad n) up)).retNone x).pad n =
      signalPad 0xB1 (s.pad n) up := by simp
  obtain ⟨hiso, hie, hpue, -⟩ := signalPad_bits (s.pad n) up
  refine ⟨hread, _, ?_, by rw [hfinal, hiso], by rw [hfinal, hie], by rw [hfinal, hpue], pinRole_signal hfinal (by simp), rfl⟩
  refine execTimes_succ hread ?_
  refine execTimes_succ (exec_configureSignalPin_pad (p := s.pad n) x (by simpa using he) (by simpa using hep) (by simp [hstep])
    (by simp) hpad) ?_
  refine execTimes_succ (exec_configureSignalPin_funcsel x (by simpa using he) (by simpa using hep) (by simp [hstep])) ?_
  refine execTimes_succ (exec_configureSignalPin_read x (by simpa using he) (by simpa using hep) (by simp [hstep]) (by simp)
    hpad') ?_
  refine execTimes_succ (exec_configureSignalPin_iso (p := signalPad 0x1B1 (s.pad n) up) x (by simpa using he)
    (by simpa using hep) (by simp [hstep]) (by simp) hpad') ?_
  rw [signalPad_iso_clear, execTimes, signalPin_steps_eq]

end Machine
end Sys2Proof
end

section
/-! The role configuration operations (43_i2c_controller.md R211; 44_i2c_target.md R241). -/

namespace Sys2Proof
namespace Machine

/-! ## A machine inside a role configuration -/

/-- `s` at step `j` of a role configuration of unit `u`, the unit being `un`, the latch `l`, and `k` draws used. -/
def State.configuring (s : State) (u : UnitId) (un : UnitState) (l : Word) (k j : Nat) : State :=
  { s.setUnit u un with latch := l, drawCount := k, pc := ⟨s.pc.stmt, j⟩ }

section Configuring

variable (s : State) (u : UnitId) (un : UnitState) (l : Word) (k j : Nat)

@[simp] theorem State.configuring_board : (s.configuring u un l k j).board = s.board := rfl
@[simp] theorem State.configuring_vars : (s.configuring u un l k j).vars = s.vars := rfl
@[simp] theorem State.configuring_latch : (s.configuring u un l k j).latch = l := rfl
@[simp] theorem State.configuring_phase : (s.configuring u un l k j).phase = s.phase := rfl
@[simp] theorem State.configuring_pc : (s.configuring u un l k j).pc = ⟨s.pc.stmt, j⟩ := rfl

@[simp] theorem State.configuring_unit : (s.configuring u un l k j).unit u = un := State.unit_setUnit_self s u un

theorem State.configuring_unit_of_ne {v : UnitId} (h : v ≠ u) : (s.configuring u un l k j).unit v = s.unit v :=
  State.unit_setUnit_of_ne s u v un h

@[simp] theorem State.configuring_pinsReady : (s.configuring u un l k j).pinsReady u = s.pinsReady u := rfl

@[simp] theorem State.configuring_advance : (s.configuring u un l k j).advance = s.configuring u un l k (j + 1) := rfl

@[simp] theorem State.configuring_setLatch (v : Word) :
    (s.configuring u un l k j).setLatch v = s.configuring u un v k j := rfl

@[simp] theorem State.configuring_drew (n : Nat) :
    (s.configuring u un l k j).drew n = s.configuring u un l (k + n) j := rfl

@[simp] theorem State.configuring_setTargetAddress (a : BitVec 7) :
    (s.configuring u un l k j).setTargetAddress a = (s.setTargetAddress a).configuring u un l k j := rfl

@[simp] theorem State.configuring_setUnit (un' : UnitState) :
    (s.configuring u un l k j).setUnit u un' = s.configuring u un' l k j := by
  simp only [State.configuring, State.setUnit, Vector.set_set]

theorem State.setLatch_advance_eq {s : State} (hstep : s.pc.step = 0) :
    (s.setLatch l).advance = s.configuring u (s.unit u) l s.drawCount 1 := by
  rw [State.configuring, State.setUnit_unit, State.advance, State.setLatch_pc, hstep]
  rfl

end Configuring

/-- At its end a configuration has changed the unit, the latch and the number of draws. -/
theorem State.configuring_retNone (s : State) (u : UnitId) (un : UnitState) (l : Word) (k j : Nat) (x : Option Var) :
    (s.configuring u un l k j).retNone x =
      ({ s with units := (s.setUnit u un).units, latch := l, drawCount := k } : State).retNone x := by
  cases x <;> rfl

/-! ## The accesses of a role configuration -/

section Accesses

variable {s : State} {u : UnitId} {un : UnitState} {l : Word} {k j : Nat}

theorem modifyRead_icEnable (h : (s.unit u).icEnable >>> 1 = 0) :
    modifyRead (.icEnable u) s = .next (s.setLatch (s.unit u).icEnable).advance := by
  have hmask : (s.unit u).icEnable &&& (Reg.icEnable u).readMask = (s.unit u).icEnable :=
    and_of_shiftRight_eq_zero h (by rw [readMask_icEnable]; decide)
  have hread := readReg_of_modifiable (r := .icEnable u) rfl s
  rw [State.stored, hmask] at hread
  exact onRead_ok hread _

theorem modifyRead_icEnable_configuring (h : un.icEnable >>> 1 = 0) :
    modifyRead (.icEnable u) (s.configuring u un l k j) = .next (s.configuring u un un.icEnable k (j + 1)) := by
  rw [modifyRead_icEnable (by rw [State.configuring_unit, h]), State.configuring_unit, State.configuring_setLatch,
    State.configuring_advance]

theorem modifyRead_icCon (h : (s.unit u).icCon >>> 10 = 0) :
    modifyRead (.icCon u) s = .next (s.setLatch (s.unit u).icCon).advance := by
  have hmask : (s.unit u).icCon &&& (Reg.icCon u).readMask = (s.unit u).icCon :=
    and_of_shiftRight_eq_zero h (by rw [readMask_icCon]; decide)
  have hread := readReg_of_modifiable (r := .icCon u) rfl s
  rw [State.stored, hmask] at hread
  exact onRead_ok hread _

theorem modifyRead_icCon_configuring (h : un.icCon >>> 10 = 0) :
    modifyRead (.icCon u) (s.configuring u un l k j) = .next (s.configuring u un un.icCon k (j + 1)) := by
  rw [modifyRead_icCon (by rw [State.configuring_unit, h]), State.configuring_unit, State.configuring_setLatch,
    State.configuring_advance]

/-- The unit after its enabling. -/
def UnitState.enabledAs (un : UnitState) : UnitState := { un with role := requestedRole un.icCon, icEnable := 1 }

theorem UnitState.enabledAs_role (un : UnitState) : un.enabledAs.role = requestedRole un.icCon := rfl

/-- The disabling write of an idle unit: an enabled unit is flushed, a disabled one stays as it is. -/
structure Disabled (un un' : UnitState) : Prop where
  icEnable : un'.icEnable = 0
  icCon : un'.icCon = un.icCon
  icTar : un'.icTar = un.icTar
  icSar : un'.icSar = un.icSar
  txf : un'.txf = []
  flushed : un.icEnable = 1 → un'.rxf = []
  kept : un.icEnable = 0 → un' = un

theorem modifyWrite_icEnable_zero {k' : State → State} (hen : un.icEnable >>> 1 = 0) (htx : un.txf = [])
    (hnames : s.phase.names u = false) :
    ∃ un' k₁, Disabled un un' ∧
      modifyWrite (.icEnable u) [(.enable, 0)] (s.configuring u un un.icEnable k j) k' =
        .next (k' (s.configuring u un' un.icEnable k₁ j)) := by
  have hzero : insertFields [(.enable, 0)] un.icEnable = 0 := by
    obtain h | h := eq_zero_or_one hen <;> rw [h] <;> decide
  have hadm : (Reg.icEnable u).admitsValue 0 = true := (admitsValue_icEnable u 0).2 (by decide)
  simp only [modifyWrite, State.configuring_latch, hzero]
  obtain h | h := eq_zero_or_one hen
  · have hsame : ((s.configuring u un un.icEnable k j).unit u).enabled = getFlag .enable 0 := by
      rw [State.configuring_unit, UnitState.enabled, h]
    exact ⟨un, k, ⟨h, rfl, rfl, rfl, htx, fun h1 => absurd (h.symm.trans h1) (by decide), fun _ => rfl⟩,
      onWrite_ok ((writeReg_of_admitted rfl hadm _).trans (writeEnable_of_same hsame)) _⟩
  · have hon : ((s.configuring u un un.icEnable k j).unit u).enabled = true := by
      rw [State.configuring_unit, UnitState.enabled, h]
      decide
    have hdis := disableUnit_of_idle (u := u) (v := 0) (s := s.configuring u un un.icEnable k j) hnames
      (by rw [State.configuring_unit, htx])
    simp only [State.configuring_unit, State.configuring_setUnit, State.configuring_drew] at hdis
    refine ⟨_, _, ?_, onWrite_ok ((writeReg_of_admitted rfl hadm _).trans ((writeEnable_of_fall hon (by decide)).trans hdis)) _⟩
    exact ⟨rfl, rfl, rfl, rfl, rfl, fun _ => rfl, fun h0 => absurd (h.symm.trans h0) (by decide)⟩

section Off

variable (hoff : un.icEnable = 0) (k' : State → State)
include hoff

theorem enabled_configuring : ((s.configuring u un l k j).unit u).enabled = false := by
  rw [State.configuring_unit, UnitState.enabled, hoff]
  decide

theorem modifyWrite_icCon_configuring {fs : List (Field × Word)} {w : Word} (hfs : insertFields fs l = w) (hw : w >>> 10 = 0) :
    modifyWrite (.icCon u) fs (s.configuring u un l k j) k' = .next (k' (s.configuring u { un with icCon := w } l k j)) := by
  have hwrite := (writeReg_of_admitted rfl ((admitsValue_icCon u w).2 hw) (s.configuring u un l k j)).trans
    (writeConfig_of_disabled (enabled_configuring hoff) _ _)
  rw [State.configuring_unit, State.configuring_setUnit] at hwrite
  rw [modifyWrite, State.configuring_latch, hfs]
  exact onWrite_ok hwrite k'

theorem onWrite_icTar_configuring {w : Word} (hw : w >>> 12 = 0) :
    onWrite (.icTar u) w (s.configuring u un l k j) k' = .next (k' (s.configuring u { un with icTar := w } l k j)) := by
  have hwrite := (writeReg_of_admitted rfl ((admitsValue_icTar u w).2 hw) (s.configuring u un l k j)).trans
    (writeConfig_of_disabled (enabled_configuring hoff) _ _)
  rw [State.configuring_unit, State.configuring_setUnit] at hwrite
  exact onWrite_ok hwrite k'

theorem onWrite_icSar_configuring {w : Word} (hw : w >>> 10 = 0) :
    onWrite (.icSar u) w (s.configuring u un l k j) k' = .next (k' (s.configuring u { un with icSar := w } l k j)) := by
  have hwrite := (writeReg_of_admitted rfl ((admitsValue_icSar u w).2 hw) (s.configuring u un l k j)).trans
    (writeConfig_of_disabled (enabled_configuring hoff) _ _)
  rw [State.configuring_unit, State.configuring_setUnit] at hwrite
  exact onWrite_ok hwrite k'

theorem modifyWrite_icEnable_one (hlegal : un.configLegal = true) (hpins : s.pinsReady u = true) :
    modifyWrite (.icEnable u) [(.enable, 1)] (s.configuring u un un.icEnable k j) k' =
      .next (k' (s.configuring u un.enabledAs un.icEnable k j)) := by
  have hone : insertFields [(.enable, 1)] un.icEnable = 1 := by rw [hoff]; decide
  have hwrite := (writeReg_of_admitted rfl ((admitsValue_icEnable u 1).2 (by decide)) (s.configuring u un un.icEnable k j)).trans
    ((writeEnable_of_rise (enabled_configuring hoff) (by decide)).trans
      (enableUnit_of_legal (by rw [State.configuring_unit, hlegal]) hpins))
  rw [State.configuring_unit, State.configuring_setUnit] at hwrite
  rw [modifyWrite, State.configuring_latch, hone]
  exact onWrite_ok hwrite k'

end Off

end Accesses

/-! ## The seven accesses -/

/-- The accesses that both role configurations make: all but the fourth, which stores the address. -/
def roleStep (u : UnitId) (fs : List (Field × Word)) (storeAddress : State → Outcome) (x : Option Var) (s : State) : Outcome :=
  match s.pc.step with
  | 0 => modifyRead (.icEnable u) s
  | 1 => modifyWrite (.icEnable u) [(.enable, 0)] s State.advance
  | 2 => modifyRead (.icCon u) s
  | 3 => modifyWrite (.icCon u) fs s State.advance
  | 4 => storeAddress s
  | 5 => modifyRead (.icEnable u) s
  | _ => modifyWrite (.icEnable u) [(.enable, 1)] s fun t => t.retNone x

theorem controllerConfigStep_eq (x : Option Var) (a : Word) (s : State) :
    controllerConfigStep x a s = roleStep s.board.ctrlUnit controllerConFields
      (fun t => onWrite (.icTar t.board.ctrlUnit) (assemble [(.tarAddress, a)]) t State.advance) x s := rfl

theorem targetConfigStep_eq (x : Option Var) (a : Word) (s : State) :
    targetConfigStep x a s = roleStep s.board.tgtUnit targetConFields
      (fun t => onWrite (.icSar t.board.tgtUnit) (assemble [(.sarAddress, a)]) t
        fun t => (t.setTargetAddress (a.truncate 7)).advance) x s := rfl

/-- What a unit must be for its role to be configured: disabled or enabled and idle, with ready pins. -/
structure Configurable (s : State) (u : UnitId) : Prop where
  icEnable : (s.unit u).icEnable >>> 1 = 0
  icCon : (s.unit u).icCon >>> 10 = 0
  txf : (s.unit u).txf = []
  phase : s.phase.names u = false
  pins : s.pinsReady u = true

section Chain

variable {s s' : State} {u : UnitId} {fs : List (Field × Word)} {storeAddress : State → Outcome} {x : Option Var} {i : Instr}
variable {con : Word} {addressed : UnitState → UnitState}

section First

variable (hexec : ∀ t : State, t.vars = s.vars → t.board = s.board → exec i t = roleStep u fs storeAddress x t)
variable (hstep : s.pc.step = 0) (h : Configurable s u)
include hexec hstep h

theorem exec_of_roleStep_zero : exec i s = .next (s.setLatch (s.unit u).icEnable).advance := by
  simp only [hexec s rfl rfl, roleStep, hstep]
  exact modifyRead_icEnable h.icEnable

/-- The seven accesses: the unit is disabled, gets its IC_CON and its address (`s'` and `addressed` say what storing that does),
and is enabled. -/
theorem execTimes_of_roleStep (hvars : s'.vars = s.vars) (hboard : s'.board = s.board)
    (hfs : insertFields fs (s.unit u).icCon = con) (hcon : con >>> 10 = 0)
    (haddr : ∀ un l k, un.icEnable = 0 →
      storeAddress (s.configuring u un l k 4) = .next (s'.configuring u (addressed un) l k 5))
    (hen : ∀ un, un.icEnable = 0 → (addressed un).icEnable = 0)
    (hlegal : ∀ un : UnitState, (addressed { un with icCon := con }).configLegal = true) (hpins : s'.pinsReady u = true) :
    ∃ un k, Disabled (s.unit u) un ∧ execTimes 7 i s =
      .next ((s'.configuring u (addressed { un with icCon := con }).enabledAs 0 k 6).retNone x) := by
  obtain ⟨un, k, hun, hdisable⟩ := modifyWrite_icEnable_zero (k := s.drawCount) (j := 1) (k' := State.advance) h.icEnable h.txf
    h.phase
  have hconf (un : UnitState) (l : Word) (k j : Nat) := hexec (s.configuring u un l k j) rfl rfl
  have hconf' (un : UnitState) (l : Word) (k j : Nat) := hexec (s'.configuring u un l k j) hvars hboard
  have hoff := hen { un with icCon := con } hun.icEnable
  refine ⟨un, k, hun, execTimes_succ (exec_of_roleStep_zero hexec hstep h) ?_⟩
  rw [State.setLatch_advance_eq u _ hstep]
  refine execTimes_succ ((hconf ..).trans hdisable) ?_
  refine execTimes_succ ((hconf ..).trans (modifyRead_icCon_configuring (by rw [hun.icCon, h.icCon]))) ?_
  refine execTimes_succ ((hconf ..).trans
    (modifyWrite_icCon_configuring hun.icEnable State.advance (by rw [hun.icCon, hfs]) hcon)) ?_
  refine execTimes_succ ((hconf ..).trans (haddr _ _ _ hun.icEnable)) ?_
  refine execTimes_succ ((hconf' ..).trans (modifyRead_icEnable_configuring (by rw [hoff]; rfl))) ?_
  refine execTimes_succ ((hconf' ..).trans (modifyWrite_icEnable_one hoff _ (hlegal un) hpins)) ?_
  rw [execTimes, hoff]
  rfl

end First

end Chain

/-! ## The two roles -/

/-- A bus address that is not reserved has 7 bits. -/
theorem ushiftRight_of_le {a : Word} (h : a ≤ 0x77) {k : Nat} (hk : 7 ≤ k) : a >>> k = 0 := by
  have hn : a.toNat ≤ 119 := h
  have hpow : 2 ^ 7 ≤ 2 ^ k := Nat.pow_le_pow_right (by decide) hk
  refine BitVec.eq_of_toNat_eq ?_
  rw [BitVec.toNat_ushiftRight, Nat.shiftRight_eq_div_pow]
  exact Nat.div_eq_of_lt (by omega)

/-- A unit with such an IC_CON and an unreserved address of 7 bits is legal. -/
theorem configLegal_of_address {un : UnitState} {a : Word} (hreg : un.addressReg = a) (hlow : 0x08 ≤ a) (hup : a ≤ 0x77)
    (hrole : un.icCon.getLsbD 0 = un.icCon.getLsbD 6) (hcon : un.icCon &&& 0x398 = 0) : un.configLegal = true := by
  have ha := ushiftRight_of_le hup (Nat.le_refl 7)
  have hlow7 : a &&& 0x7F = a := and_of_shiftRight_eq_zero ha (by decide)
  have hhigh : a &&& 0x380 = 0 := by
    rw [and_mask_of_shiftRight (by decide) ha]
    exact BitVec.and_zero
  have hbit : a.getLsbD 11 = false := by
    rw [← hlow7, BitVec.getLsbD_and]
    exact Bool.and_false _
  subst hreg
  exact configLegal_iff.2 ⟨hrole, hcon, hhigh, by rw [hlow7]; exact hlow, by rw [hlow7]; exact hup, fun _ => hbit⟩

theorem configLegal_of_controller {un : UnitState} (hcon : un.icCon = 0x65) (hlow : 0x08 ≤ un.icTar) (hup : un.icTar ≤ 0x77) :
    un.configLegal = true :=
  configLegal_of_address (addressReg_of_true (by rw [hcon]; decide)) hlow hup (by rw [hcon]; decide) (by rw [hcon]; decide)

theorem configLegal_of_target {un : UnitState} (hcon : un.icCon = 0x24) (hlow : 0x08 ≤ un.icSar) (hup : un.icSar ≤ 0x77) :
    un.configLegal = true :=
  configLegal_of_address (addressReg_of_false (by rw [hcon]; decide)) hlow hup (by rw [hcon]; decide) (by rw [hcon]; decide)

theorem assemble_address {a : Word} (h : a ≤ 0x77) : assemble [(.tarAddress, a)] = a ∧ assemble [(.sarAddress, a)] = a := by
  have hfit : a.toNat < 1024 := by bv_omega
  constructor <;> simp [assemble, insertFields, insertField, fieldValue, fieldWidth, Nat.not_le.2 hfit]

theorem insertFields_controllerConFields {w : Word} (hw : w >>> 10 = 0) (hlegal : w &&& 0x398 = 0) :
    insertFields controllerConFields w = 0x65 := by
  have hkept : lowMask 10 &&& keptMask controllerConFields = 0x398 := by decide
  have hword : assemble controllerConFields = 0x65 := by decide
  rw [insertFields_eq, and_mask_of_shiftRight (by decide) hw, hkept, hlegal, hword]
  rfl

theorem insertFields_targetConFields {w : Word} (hw : w >>> 10 = 0) (hlegal : w &&& 0x398 = 0) :
    insertFields targetConFields w = 0x24 := by
  have hkept : lowMask 10 &&& keptMask targetConFields = 0x398 := by decide
  have hword : assemble targetConFields = 0x24 := by decide
  rw [insertFields_eq, and_mask_of_shiftRight (by decide) hw, hkept, hlegal, hword]
  rfl

theorem withBusAddress_of_le {a : Word} (h : a ≤ 0x77) (s : State) (k : Outcome) : withBusAddress a s k = k :=
  if_pos (by bv_omega)

theorem exec_configureAsController {s : State} {e : Expr} {a : Word} (he : evalWord s.vars e = .ok a) (ha : a ≤ 0x77)
    (x : Option Var) : exec (.configureAsController e x) s = controllerConfigStep x a s := by
  simp only [exec, execConfigureAsController, he, withOperand_ok, withBusAddress_of_le ha]

theorem exec_configureAsTarget {s : State} {e : Expr} {a : Word} (he : evalWord s.vars e = .ok a) (ha : a ≤ 0x77)
    (x : Option Var) : exec (.configureAsTarget e x) s = targetConfigStep x a s := by
  simp only [exec, execConfigureAsTarget, he, withOperand_ok, withBusAddress_of_le ha]

theorem requestedRole_controller : requestedRole 0x65 = .controller := by decide
theorem requestedRole_target : requestedRole 0x24 = .target := by decide

/-- Settles O43: `execTimes_of_roleStep`, the fourth access storing IC_TAR. -/
theorem configureAsControllerResult : Obligations.ConfigureAsControllerResult := by
  intro s x e a he hlow hup hstep hen hcon hconLegal htx hphase hpins
  have hconf : Configurable s s.board.ctrlUnit := ⟨hen, hcon, htx, Phase.names_of_ne hphase, hpins⟩
  have hexec (t : State) (hv : t.vars = s.vars) (hb : t.board = s.board) :
      exec (.configureAsController e x) t = roleStep s.board.ctrlUnit controllerConFields
        (fun t => onWrite (.icTar t.board.ctrlUnit) (assemble [(.tarAddress, a)]) t State.advance) x t := by
    rw [exec_configureAsController (hv ▸ he) hup, controllerConfigStep_eq, hb]
  obtain ⟨un, k, hun, hrun⟩ := execTimes_of_roleStep (s' := s) (con := 0x65) (addressed := fun un => { un with icTar := a })
    hexec hstep hconf rfl rfl (insertFields_controllerConFields hcon hconLegal) (by decide)
    (fun un l k hoff => by
      rw [(assemble_address hup).1]
      exact onWrite_icTar_configuring hoff _ (ushiftRight_of_le hup (by decide)))
    (fun un hoff => hoff)
    (fun un => configLegal_of_controller rfl hlow hup) hpins
  refine ⟨exec_of_roleStep_zero hexec hstep hconf, _, hrun, ?_⟩
  simp only [State.retNone_unit, State.configuring_unit]
  refine ⟨(UnitState.enabledAs_role _).trans requestedRole_controller, rfl, rfl, rfl, hun.icSar, hun.txf, hun.flushed, fun h => ?_,
    State.configuring_unit_of_ne _ _ _ _ _ _ (otherUnit_ne _), k, ?_⟩
  · rw [hun.kept h]
    exact ⟨rfl, rfl, rfl, rfl⟩
  · rw [State.configuring_retNone, State.retNone_units, State.retNone_latch]

/-- Settles O47: `execTimes_of_roleStep`, the fourth access storing IC_SAR and the object's address. -/
theorem configureAsTargetResult : Obligations.ConfigureAsTargetResult := by
  intro s x e a he hlow hup hstep hen hcon hconLegal htx hphase hpins
  have hconf : Configurable s s.board.tgtUnit := ⟨hen, hcon, htx, Phase.names_of_ne hphase, hpins⟩
  have hexec (t : State) (hv : t.vars = s.vars) (hb : t.board = s.board) :
      exec (.configureAsTarget e x) t = roleStep s.board.tgtUnit targetConFields
        (fun t => onWrite (.icSar t.board.tgtUnit) (assemble [(.sarAddress, a)]) t
          fun t => (t.setTargetAddress (a.truncate 7)).advance) x t := by
    rw [exec_configureAsTarget (hv ▸ he) hup, targetConfigStep_eq, hb]
  obtain ⟨un, k, hun, hrun⟩ := execTimes_of_roleStep (s' := s.setTargetAddress (a.truncate 7)) (con := 0x24)
    (addressed := fun un => { un with icSar := a })
    hexec hstep hconf rfl rfl (insertFields_targetConFields hcon hconLegal) (by decide)
    (fun un l k hoff => by
      rw [(assemble_address hup).2]
      exact onWrite_icSar_configuring hoff _ (ushiftRight_of_le hup (by decide)))
    (fun un hoff => hoff)
    (fun un => configLegal_of_target rfl hlow hup) hpins
  refine ⟨exec_of_roleStep_zero hexec hstep hconf, _, hrun, ?_⟩
  simp only [State.retNone_unit, State.configuring_unit]
  refine ⟨(UnitState.enabledAs_role _).trans requestedRole_target, rfl, rfl, rfl, hun.icTar, hun.txf, hun.flushed, fun h => ?_,
    State.configuring_unit_of_ne _ _ _ _ _ _ (otherUnit_ne _).symm, ?_, k, ?_⟩
  · rw [hun.kept h]
    exact ⟨rfl, rfl, rfl, rfl⟩
  · rw [State.retNone_targetAddress]
    rfl
  · rw [State.configuring_retNone, State.retNone_units, State.retNone_latch, State.retNone_targetAddress]
    rfl

end Machine
end Sys2Proof
end

section
/-! Whole transfers: the transformation law (44_i2c_target.md R245) and the reply of a read (R243; 43_i2c_controller.md R215). -/

namespace Sys2Proof
namespace Machine

/-! ## A machine inside a transfer -/

/-- `s` with its controller unit `un`, its target unit `vn`, `k` draws used, at step `j` of its statement. -/
def State.stage (s : State) (un vn : UnitState) (k j : Nat) : State :=
  { (s.setUnit s.board.ctrlUnit un).setUnit s.board.tgtUnit vn with drawCount := k, pc := ⟨s.pc.stmt, j⟩ }

section Stage

variable (s : State) (un vn : UnitState) (k j : Nat)

@[simp] theorem State.stage_board : (s.stage un vn k j).board = s.board := rfl
@[simp] theorem State.stage_vars : (s.stage un vn k j).vars = s.vars := rfl
@[simp] theorem State.stage_phase : (s.stage un vn k j).phase = s.phase := rfl
@[simp] theorem State.stage_fault : (s.stage un vn k j).fault = s.fault := rfl
@[simp] theorem State.stage_requested : (s.stage un vn k j).requested = s.requested := rfl
@[simp] theorem State.stage_memoryValue : (s.stage un vn k j).memoryValue = s.memoryValue := rfl
@[simp] theorem State.stage_pc : (s.stage un vn k j).pc = ⟨s.pc.stmt, j⟩ := rfl

@[simp] theorem State.stage_drew (n : Nat) : (s.stage un vn k j).drew n = s.stage un vn (k + n) j := rfl
@[simp] theorem State.stage_advance : (s.stage un vn k j).advance = s.stage un vn k (j + 1) := rfl

@[simp] theorem State.stage_unit_tgt : (s.stage un vn k j).unit s.board.tgtUnit = vn := State.unit_setUnit_self ..

@[simp] theorem State.stage_unit_ctrl : (s.stage un vn k j).unit s.board.ctrlUnit = un :=
  (State.unit_setUnit_of_ne _ _ _ _ (otherUnit_ne _).symm).trans (State.unit_setUnit_self ..)

theorem State.stage_unit_of_ctrl {s : State} {c : UnitId} (hc : c = s.board.ctrlUnit) : (s.stage un vn k j).unit c = un := by
  rw [hc, State.stage_unit_ctrl]

theorem State.stage_unit_of_tgt {s : State} {t : UnitId} (ht : t = s.board.tgtUnit) : (s.stage un vn k j).unit t = vn := by
  rw [ht, State.stage_unit_tgt]

theorem State.stage_self {s : State} {j : Nat} (hstep : s.pc.step = j) :
    s.stage (s.unit s.board.ctrlUnit) (s.unit s.board.tgtUnit) s.drawCount j = s := by
  subst hstep
  rw [State.stage, State.setUnit_unit, State.setUnit_unit]

@[simp] theorem State.stage_setUnit_tgt (vn' : UnitState) :
    (s.stage un vn k j).setUnit s.board.tgtUnit vn' = s.stage un vn' k j := by
  simp only [State.stage, State.setUnit, Vector.set_set]

/-- The joint steps name the target by the controller. -/
theorem State.stage_unit_other : (s.stage un vn k j).unit (otherUnit s.board.ctrlUnit) = vn := State.stage_unit_tgt ..

theorem State.stage_setUnit_other (vn' : UnitState) :
    (s.stage un vn k j).setUnit (otherUnit s.board.ctrlUnit) vn' = s.stage un vn' k j := State.stage_setUnit_tgt ..

@[simp] theorem State.stage_setUnit_ctrl (un' : UnitState) :
    (s.stage un vn k j).setUnit s.board.ctrlUnit un' = s.stage un' vn k j := by
  have hne : s.board.ctrlUnit.val ≠ s.board.tgtUnit.val := fun h => otherUnit_ne _ (Fin.ext h.symm)
  simp only [State.stage, State.setUnit]
  rw [Vector.set_comm _ _ hne.symm, Vector.set_set]

theorem State.stage_ret (x : Option Var) (v : Val) : (s.stage un vn k j).ret x v = (s.ret x v).stage un vn k 0 := by
  cases x <;> rfl

end Stage

/-- What a transfer does not change in a unit. -/
structure SameSetup (un un' : UnitState) : Prop where
  icEnable : un'.icEnable = un.icEnable
  role : un'.role = un.role
  txAbrt : un'.txAbrt = un.txAbrt
  icTar : un'.icTar = un.icTar
  icSar : un'.icSar = un.icSar

/-- A controller without an abort whose target acknowledges on a bus that is up. -/
structure Linked (s : State) : Prop where
  enabled : (s.unit s.board.ctrlUnit).enabled = true
  role : (s.unit s.board.ctrlUnit).role = .controller
  txAbrt : (s.unit s.board.ctrlUnit).txAbrt = false
  up : s.busUp s.board.ctrlUnit = true
  acks : s.acks s.board.ctrlUnit s.board.tgtUnit = true

theorem Linked.congr {s t : State} (h : Linked s) (hb : t.board = s.board) (hp : ∀ n, t.pad n = s.pad n)
    (hc : ∀ n, t.ctrl n = s.ctrl n) (ho : t.sioOe = s.sioOe)
    (hctrl : SameSetup (s.unit s.board.ctrlUnit) (t.unit s.board.ctrlUnit))
    (htgt : SameSetup (s.unit s.board.tgtUnit) (t.unit s.board.tgtUnit)) : Linked t := by
  obtain ⟨hen, hrole, habrt, hup, hack⟩ := h
  obtain ⟨hten, htrole, hpins, haddr⟩ := State.acks_iff.1 hack
  rw [← pinsReady_congr hb hp hc ho] at hpins
  refine ⟨?_, ?_, ?_, ?_, State.acks_iff.2 ⟨?_, ?_, ?_, ?_⟩⟩ <;> rw [hb]
  · rw [UnitState.enabled, hctrl.icEnable]; exact hen
  · rw [hctrl.role, hrole]
  · rw [hctrl.txAbrt, habrt]
  · rw [busUp_congr hb hp hc ho, hup]
  · rw [UnitState.enabled, htgt.icEnable]; exact hten
  · rw [htgt.role, htrole]
  · exact hpins
  · rw [htgt.icSar, hctrl.icTar, haddr]

/-- A transfer moves bytes between the FIFOs; the setup of the units stays. -/
theorem Linked.stage {s : State} {un vn un' vn' : UnitState} {k j : Nat} (h : Linked (s.stage un vn k j))
    (k' j' : Nat) (hun : SameSetup un un' := by exact ⟨rfl, rfl, rfl, rfl, rfl⟩)
    (hvn : SameSetup vn vn' := by exact ⟨rfl, rfl, rfl, rfl, rfl⟩) : Linked (s.stage un' vn' k' j') :=
  h.congr rfl (fun _ => rfl) (fun _ => rfl) rfl (by simpa using hun) (by simpa using hvn)

/-- A step that leaves units, pins and board alone. -/
theorem Linked.of_sameUnits {s t : State} (h : Linked s) (hb : t.board = s.board) (hu : ∀ u, t.unit u = s.unit u)
    (hp : ∀ n, t.pad n = s.pad n) (hc : ∀ n, t.ctrl n = s.ctrl n) (ho : t.sioOe = s.sioOe) : Linked t :=
  h.congr hb hp hc ho (by rw [hu]; exact ⟨rfl, rfl, rfl, rfl, rfl⟩) (by rw [hu]; exact ⟨rfl, rfl, rfl, rfl, rfl⟩)

theorem Linked.ret {s : State} (h : Linked s) (x : Option Var) (v : Val) : Linked (s.ret x v) :=
  h.of_sameUnits (by simp) (by simp) (by simp) (by simp) (by simp)

theorem Linked.retNone {s : State} (h : Linked s) (x : Option Var) : Linked (s.retNone x) :=
  h.of_sameUnits (by simp) (by simp) (by simp) (by simp) (by simp)

theorem Linked.setRequested {s : State} (h : Linked s) : Linked s.setRequested :=
  h.of_sameUnits rfl (fun _ => rfl) (fun _ => rfl) (fun _ => rfl) rfl

theorem Linked.setPhase {s : State} (h : Linked s) (p : Phase) : Linked (s.setPhase p) :=
  h.of_sameUnits rfl (fun _ => rfl) (fun _ => rfl) (fun _ => rfl) rfl

/-! ## The steps of `writeByte`, BUS-WRITE and `receiveBytesToMemory` inside a transfer -/

section Write

variable {s : State} {un vn : UnitState} {k j : Nat} {e : Expr} {b : Byte}

section WriteByte

variable (he : evalWord s.vars e = .ok (b.zeroExtend 32)) (x : Option Var)
include he

theorem exec_writeByte_stage_wait (htx : un.txf = []) :
    exec (.writeByte x e) (s.stage un vn k 0) = .next (s.stage un vn (k + 1) 1) := by
  obtain ⟨hwait, -⟩ := writeByteRunsItsSteps (s.stage un vn k 0) x e b he
  exact (hwait rfl).1 (by simp [htx])

theorem exec_writeByte_stage_push (h : Linked (s.stage un vn k 1)) (htx : un.txf = []) (hidle : s.phase = .idle) :
    exec (.writeByte x e) (s.stage un vn k 1) = .next (s.stage { un with txf := [⟨b, false, true, false⟩] } vn k 2) := by
  obtain ⟨-, hpush, -⟩ := writeByteRunsItsSteps (s.stage un vn k 1) x e b he
  simpa using (hpush rfl).1 h.enabled h.role h.txAbrt (by simp [htx]) (by simp [hidle])

theorem exec_writeByte_stage_check (habrt : un.txAbrt = false) :
    exec (.writeByte x e) (s.stage un vn k 2) = .next ((s.ret x (.bool true)).stage un vn (k + 1) 0) := by
  obtain ⟨-, -, hcheck, -⟩ := writeByteRunsItsSteps (s.stage un vn k 2) x e b he
  rw [(hcheck rfl).1 (by simpa using habrt)]
  cases x <;> rfl

end WriteByte

theorem busTurn_write_stage {c : Cmd} (h : Linked (s.stage un vn k j)) (hidle : s.phase = .idle) (htx : un.txf = [c])
    (hcmd : c.cmd = false) (hrx : vn.rxf = []) :
    busTurn (.write s.board.ctrlUnit) (s.stage un vn k j) =
      .next (s.stage { un with txf := [] } { vn with rxf := [c.dat] } k j) := by
  have htx' : ((s.stage un vn k j).unit s.board.ctrlUnit).txf = [c] := by rw [State.stage_unit_ctrl, htx]
  have hwrite := busWrite_of_acks htx' h.acks (by rw [State.stage_unit_other, hrx]; decide)
  simp only [State.stage_unit_other, State.stage_setUnit_other, hrx, State.stage_unit_ctrl, State.stage_setUnit_ctrl,
    List.nil_append] at hwrite
  exact busTurn_of_ok (busEnabled_write h.enabled h.role h.txAbrt htx' hidle h.up hcmd) hwrite

theorem exec_receiveBytesToMemory_stage_wait (y : Option Var) (hrx : vn.rxf ≠ []) :
    exec (.receiveBytesToMemory y) (s.stage un vn k 0) = .next (s.stage un vn (k + 1) 1) := by
  obtain ⟨hwait, -⟩ := receiveStoresTheIncrement (s.stage un vn k 0) y
  exact (hwait rfl).1 (by simpa using hrx)

theorem exec_receiveBytesToMemory_stage_take (y : Option Var) (hen : vn.enabled = true) (hrx : vn.rxf = [b]) :
    ∃ d : Byte, d.toNat = (b.toNat + 1) % 256 ∧ exec (.receiveBytesToMemory y) (s.stage un vn k 1) =
      .next (((s.stage un { vn with rxf := [] } (k + 1) 1).setMemoryValue d).retNone y) := by
  obtain ⟨-, htake, -⟩ := receiveStoresTheIncrement (s.stage un vn k 1) y
  obtain ⟨d, hd, hexec⟩ := htake rfl b [] (by rw [State.stage_board, State.stage_unit_tgt]; exact hen) (by simpa using hrx)
  exact ⟨d, hd, by simpa using hexec⟩

end Write

/-- Settles O58: either order of the transfer and the check leads to the same units and the same result; the target then holds
the byte alone. -/
theorem writtenByteIsStoredIncremented : Obligations.WrittenByteIsStoredIncremented := by
  intro s x y e b hstep he hidle hup hen hrole habrt htx hack hrx
  have h : Linked s := ⟨hen, hrole, habrt, hup, hack⟩
  have hon := (State.acks_iff.1 hack).1
  have hself := State.stage_self hstep
  generalize s.unit s.board.ctrlUnit = un, s.unit s.board.tgtUnit = vn at *
  have h0 : Linked (s.stage un vn s.drawCount 0) := by rw [hself]; exact h
  have h1 := (h0.stage (un' := { un with txf := [⟨b, false, true, false⟩] }) (s.drawCount + 2) 2).ret (some x) (.bool true)
  rw [State.stage_ret] at h1
  have hpush := exec_writeByte_stage_push he (some x) (h0.stage (s.drawCount + 1) 1) htx hidle
  have hwrite := busTurn_write_stage (h0.stage (un' := { un with txf := [⟨b, false, true, false⟩] }) (s.drawCount + 1) 2)
    hidle rfl rfl hrx
  have hwait := exec_writeByte_stage_wait (vn := vn) (k := s.drawCount) he (some x) htx
  rw [hself] at hwait
  obtain ⟨d, hd, htake⟩ := exec_receiveBytesToMemory_stage_take (s := s.ret (some x) (.bool true)) (un := { un with txf := [] })
    (vn := { vn with rxf := [b] }) (k := s.drawCount + 3) y hon rfl
  refine ⟨_, _, _, _, _, _, execTimes_succ hwait (execTimes_succ hpush rfl), hwrite,
    exec_writeByte_stage_check he (some x) habrt, exec_writeByte_stage_check he (some x) habrt, ?_, rfl, ?_, rfl,
    execTimes_succ (exec_receiveBytesToMemory_stage_wait y (List.cons_ne_nil _ _)) (execTimes_succ htake rfl), ⟨d, hd, ?_⟩,
    ?_, ?_, ?_⟩
  · exact busTurn_write_stage h1 hidle rfl rfl hrx
  · exact lookupVar_assignVar_self ..
  · rw [State.retNone_memoryValue]
    rfl
  · rw [State.retNone_unit, State.setMemoryValue_unit, State.stage_unit_of_ctrl _ _ _ _ (by simp)]
  · rw [State.retNone_unit, State.setMemoryValue_unit, State.stage_unit_of_tgt _ _ _ _ (by simp)]
  · rw [State.retNone_fault]
    rfl

/-! ## The steps of a read inside a transfer -/

section Read

variable {s : State} {un vn : UnitState} {k j : Nat} (x : Option Var)

theorem exec_requestByteFromMemory_stage_wait (htx : un.txf = []) :
    exec (.requestByteFromMemory x) (s.stage un vn k 0) = .next (s.stage un vn (k + 1) 1) := by
  obtain ⟨hwait, -⟩ := requestRunsItsSteps (s.stage un vn k 0) x
  exact (hwait rfl).1 (by simp [htx])

theorem exec_requestByteFromMemory_stage_push (h : Linked (s.stage un vn k 1)) (htx : un.txf = []) (hidle : s.phase = .idle) :
    exec (.requestByteFromMemory x) (s.stage un vn k 1) =
      .next ((s.stage { un with txf := [⟨0, true, true, false⟩] } vn k 1).setRequested.retNone x) := by
  obtain ⟨-, hpush⟩ := requestRunsItsSteps (s.stage un vn k 1) x
  simpa using (hpush rfl).1 h.enabled h.role h.txAbrt (by simp [htx]) (by simp [hidle])

theorem busTurn_readAddr_stage {c : Cmd} (h : Linked (s.stage un vn k j)) (hidle : s.phase = .idle) (htx : un.txf = [c])
    (hcmd : c.cmd = true) (hempty : vn.txf = []) :
    busTurn (.readAddr s.board.ctrlUnit) (s.stage un vn k j) = .next ((s.stage { un with txf := [] } { vn with rdReq := true }
      k j).setPhase (.readPending s.board.ctrlUnit s.board.tgtUnit)) := by
  have htx' : ((s.stage un vn k j).unit s.board.ctrlUnit).txf = [c] := by rw [State.stage_unit_ctrl, htx]
  have hread := busReadAddr_of_acks htx' h.acks (by rw [State.stage_unit_other, hempty])
  simp only [State.stage_unit_other, State.stage_setUnit_other, State.stage_unit_ctrl, State.stage_setUnit_ctrl] at hread
  exact busTurn_of_ok (busEnabled_readAddr h.enabled h.role h.txAbrt htx' hidle h.up hcmd) hread

theorem exec_serveBytesFromMemory_stage_wait (hreq : vn.rdReq = true) :
    exec (.serveBytesFromMemory x) (s.stage un vn k 0) = .next (s.stage un vn (k + 1) 1) := by
  obtain ⟨hwait, -⟩ := servePushesTheStoredByte (s.stage un vn k 0) x
  exact (hwait rfl).1 (by simpa using hreq)

theorem exec_serveBytesFromMemory_stage_clear :
    exec (.serveBytesFromMemory x) (s.stage un vn k 1) = .next (s.stage un { vn with rdReq := false } (k + 1) 2) := by
  obtain ⟨-, hclear, -⟩ := servePushesTheStoredByte (s.stage un vn k 1) x
  simpa using hclear rfl

theorem exec_serveBytesFromMemory_stage_push (h : Linked (s.stage un vn k 2)) (hempty : vn.txf = []) :
    exec (.serveBytesFromMemory x) (s.stage un vn k 2) =
      .next ((s.stage un { vn with txf := [⟨s.memoryValue.getD 0, false, false, false⟩] } k 2).retNone x) := by
  obtain ⟨-, -, hpush⟩ := servePushesTheStoredByte (s.stage un vn k 2) x
  obtain ⟨hen, hrole, -, -⟩ := State.acks_iff.1 h.acks
  simpa [hempty] using (hpush rfl).1 hen hrole (by simp [hempty])

theorem busTurn_readData_stage {c : Cmd} (h : Linked (s.stage un vn k j))
    (hphase : s.phase = .readPending s.board.ctrlUnit s.board.tgtUnit) (htx : vn.txf = [c]) (hrx : un.rxf = []) :
    busTurn (.readData s.board.ctrlUnit) (s.stage un vn k j) =
      .next ((s.stage { un with rxf := [c.dat] } { vn with txf := [] } k j).setPhase .idle) := by
  obtain ⟨-, -, hpins, -⟩ := State.acks_iff.1 h.acks
  have hread := busReadData_of_room (c := s.board.ctrlUnit) (s := s.stage un vn k j) (by rw [State.stage_unit_other, htx])
    (by rw [State.stage_unit_ctrl, hrx]; decide)
  simp only [State.stage_unit_other, State.stage_setUnit_other, hrx, State.stage_unit_ctrl, State.stage_setUnit_ctrl,
    List.nil_append] at hread
  refine busTurn_of_ok (busEnabled_readData (s := s.stage un vn k j) hphase h.up hpins ?_) hread
  rw [State.stage_unit_other, htx]
  exact List.cons_ne_nil _ _

theorem exec_receiveRequestedBytesFromMemory_stage_start (hreq : s.requested = true) :
    exec (.receiveRequestedBytesFromMemory x) (s.stage un vn k 0) = .next (s.stage un vn k 1) := by
  obtain ⟨hstart, -⟩ := receiveRequestedRunsItsSteps (s.stage un vn k 0) x
  exact (hstart rfl).2 hreq

theorem exec_receiveRequestedBytesFromMemory_stage_wait (hrx : un.rxf ≠ []) :
    exec (.receiveRequestedBytesFromMemory x) (s.stage un vn k 1) = .next (s.stage un vn (k + 1) 2) := by
  obtain ⟨-, hwait, -⟩ := receiveRequestedRunsItsSteps (s.stage un vn k 1) x
  exact (hwait rfl).1 (by simpa using hrx)

theorem exec_receiveRequestedBytesFromMemory_stage_take {b : Byte} (h : Linked (s.stage un vn k 2)) (hrx : un.rxf = [b]) :
    exec (.receiveRequestedBytesFromMemory x) (s.stage un vn k 2) =
      .next ((s.stage { un with rxf := [] } vn (k + 1) 2).ret x (.opt (some (b.zeroExtend 32)))) := by
  obtain ⟨-, -, htake⟩ := receiveRequestedRunsItsSteps (s.stage un vn k 2) x
  simpa using (htake rfl).1 b [] h.enabled (by simpa using hrx)

end Read

/-! ## The reply of a read -/

/-- After the request of `s`: its controller unit is `un`, its target unit `vn`, PHASE is `p`, and the next statement is `n`. -/
structure Requested (s m : State) (un vn : UnitState) (p : Phase) (n : Nat) : Prop where
  linked : Linked m
  board : m.board = s.board
  ctrl : m.unit m.board.ctrlUnit = un
  tgt : m.unit m.board.tgtUnit = vn
  requested : m.requested = true
  memoryValue : m.memoryValue = s.memoryValue
  fault : m.fault = s.fault
  phase : m.phase = p
  pc : m.pc = ⟨n, 0⟩

section Chain

variable {s m : State} {un vn : UnitState} {p : Phase} {n : Nat}

/-- The state as a stage of itself. -/
theorem Requested.stage_eq (h : Requested s m un vn p n) : m.stage un vn m.drawCount 0 = m := by
  rw [← h.ctrl, ← h.tgt]
  exact State.stage_self (congrArg Pc.step h.pc)

theorem Requested.stage (h : Requested s m un vn p n) : Linked (m.stage un vn m.drawCount 0) := by
  rw [h.stage_eq]
  exact h.linked

theorem requested_of_request (h : Linked s) (hstep : s.pc.step = 0) (hidle : s.phase = .idle)
    (htx : (s.unit s.board.ctrlUnit).txf = []) (x : Option Var) :
    ∃ m, execTimes 2 (.requestByteFromMemory x) s = .next m ∧
      Requested s m { s.unit s.board.ctrlUnit with txf := [⟨0, true, true, false⟩] } (s.unit s.board.tgtUnit) .idle
        (s.pc.stmt + 1) := by
  have hself := State.stage_self hstep
  generalize s.unit s.board.ctrlUnit = un, s.unit s.board.tgtUnit = vn at *
  have h0 : Linked (s.stage un vn s.drawCount 0) := by rw [hself]; exact h
  have hwait := exec_requestByteFromMemory_stage_wait (s := s) (vn := vn) (k := s.drawCount) x htx
  rw [hself] at hwait
  refine ⟨_, execTimes_succ hwait (execTimes_succ (exec_requestByteFromMemory_stage_push x (h0.stage _ _) htx hidle) rfl), ?_⟩
  have hlinked := h0.stage (un' := { un with txf := [⟨0, true, true, false⟩] }) (s.drawCount + 1) 1
  exact ⟨hlinked.setRequested.retNone x, by simp, by simp, by simp, by simp, by simp, by simp, by simp [hidle], by simp⟩

theorem Requested.readAddr (h : Requested s m un vn .idle n) {c : Cmd} (htx : un.txf = [c]) (hcmd : c.cmd = true)
    (hempty : vn.txf = []) :
    ∃ t, busTurn (.readAddr s.board.ctrlUnit) m = .next t ∧ Requested s t { un with txf := [] } { vn with rdReq := true }
      (.readPending s.board.ctrlUnit s.board.tgtUnit) n := by
  have hturn := busTurn_readAddr_stage h.stage h.phase htx hcmd hempty
  rw [h.stage_eq, h.board] at hturn
  have hlinked := h.stage.stage (un' := { un with txf := [] }) (vn' := { vn with rdReq := true }) m.drawCount 0
  exact ⟨_, hturn, hlinked.setPhase _, by simp [h.board], by simp, by simp, by simp [h.requested], by simp [h.memoryValue],
    by simp [h.fault], by simp, by simp [h.pc]⟩

theorem Requested.serve (h : Requested s m un vn p n) (hreq : vn.rdReq = true) (hempty : vn.txf = []) (x : Option Var) :
    ∃ t, execTimes 3 (.serveBytesFromMemory x) m = .next t ∧ Requested s t un
      { vn with rdReq := false, txf := [⟨s.memoryValue.getD 0, false, false, false⟩] } p (n + 1) := by
  have hwait := exec_serveBytesFromMemory_stage_wait (s := m) (un := un) (k := m.drawCount) x hreq
  have hpush := exec_serveBytesFromMemory_stage_push x (h.stage.stage (vn' := { vn with rdReq := false }) (m.drawCount + 2) 2)
    hempty
  rw [h.stage_eq] at hwait
  rw [h.memoryValue] at hpush
  have hlinked := h.stage.stage
    (vn' := { vn with rdReq := false, txf := [⟨s.memoryValue.getD 0, false, false, false⟩] }) (m.drawCount + 2) 2
  exact ⟨_, execTimes_succ hwait (execTimes_succ (exec_serveBytesFromMemory_stage_clear x) (execTimes_succ hpush rfl)),
    hlinked.retNone x, by simp [h.board], by simp, by simp, by simp [h.requested], by simp [h.memoryValue],
    by simp [h.fault], by simp [h.phase], by simp [h.pc]⟩

theorem Requested.readData (h : Requested s m un vn (.readPending s.board.ctrlUnit s.board.tgtUnit) n) {c : Cmd}
    (htx : vn.txf = [c]) (hrx : un.rxf = []) :
    ∃ t, busTurn (.readData s.board.ctrlUnit) m = .next t ∧
      Requested s t { un with rxf := [c.dat] } { vn with txf := [] } .idle n := by
  have hturn := busTurn_readData_stage h.stage (by rw [h.phase, h.board]) htx hrx
  rw [h.stage_eq, h.board] at hturn
  have hlinked := h.stage.stage (un' := { un with rxf := [c.dat] }) (vn' := { vn with txf := [] }) m.drawCount 0
  exact ⟨_, hturn, hlinked.setPhase _, by simp [h.board], by simp, by simp, by simp [h.requested], by simp [h.memoryValue],
    by simp [h.fault], by simp, by simp [h.pc]⟩

theorem Requested.receive (h : Requested s m un vn p n) {b : Byte} (hrx : un.rxf = [b]) (x : Var) :
    ∃ t, execTimes 3 (.receiveRequestedBytesFromMemory (some x)) m = .next t ∧
      Requested s t { un with rxf := [] } vn p (n + 1) ∧ lookupVar x t.vars = some (.opt (some (b.zeroExtend 32))) := by
  have hstart := exec_receiveRequestedBytesFromMemory_stage_start (un := un) (vn := vn) (k := m.drawCount) (some x) h.requested
  rw [h.stage_eq] at hstart
  have hwait := exec_receiveRequestedBytesFromMemory_stage_wait (s := m) (vn := vn) (k := m.drawCount) (some x)
    (by rw [hrx]; exact List.cons_ne_nil _ _)
  have htake := exec_receiveRequestedBytesFromMemory_stage_take (some x) (h.stage.stage (m.drawCount + 1) 2) hrx
  have hlinked := h.stage.stage (un' := { un with rxf := [] }) (m.drawCount + 2) 2
  exact ⟨_, execTimes_succ hstart (execTimes_succ hwait (execTimes_succ htake rfl)),
    ⟨hlinked.ret _ _, by simp [h.board], by simp, by simp, by simp [h.requested], by simp [h.memoryValue],
    by simp [h.fault], by simp [h.phase], by simp [h.pc]⟩, lookupVar_assignVar_self ..⟩

end Chain

/-- Settles O59: the five operations one after another. -/
theorem servedByteIsTheReply : Obligations.ServedByteIsTheReply := by
  intro s x y z hstep hidle hup hen hrole habrt htx hrx hack hempty
  obtain ⟨s1, hrun1, h1⟩ := requested_of_request ⟨hen, hrole, habrt, hup, hack⟩ hstep hidle htx y
  obtain ⟨s2, hrun2, h2⟩ := h1.readAddr rfl rfl hempty
  obtain ⟨s3, hrun3, h3⟩ := h2.serve rfl hempty z
  obtain ⟨s4, hrun4, h4⟩ := h3.readData rfl hrx
  obtain ⟨s5, hrun5, h5, hvar⟩ := h4.receive rfl x
  refine ⟨s1, s2, s3, s4, s5, hrun1, hrun2, hrun3, hrun4, hrun5, hvar, h5.requested, h5.memoryValue, h5.phase, ?_, ?_, ?_, ?_,
    h5.pc, h5.fault⟩ <;> rw [← h5.board]
  · rw [h5.ctrl]
  · rw [h5.ctrl]
  · rw [h5.tgt]
  · rw [h5.tgt]

end Machine
end Sys2Proof
end

section
/-! The caller's statements and expressions (10_state.md R31; 30_encoding.md R141, R142). -/

namespace Sys2Proof
namespace Machine

/-! ## A CPU step of a well-formed program has a next state -/

/-- The outcome is a next state; fault entry is one. -/
def Continues (o : Outcome) : Prop := ∃ t, o = .next t

theorem continues_next (t : State) : Continues (.next t) := ⟨t, rfl⟩

theorem continues_raise (f : Fault) (s : State) : Continues (raise f s) := by
  unfold raise
  split <;> exact continues_next _

section Shared

variable {s : State}

theorem continues_onRead {r : Reg} {k : Word → State → Outcome} (hk : ∀ v m, Continues (k v m)) : Continues (onRead r s k) := by
  unfold onRead
  split
  · exact hk _ _
  · exact continues_raise _ _

theorem continues_onWrite (r : Reg) (v : Word) (k : State → State) : Continues (onWrite r v s k) := by
  unfold onWrite
  split
  · exact continues_next _
  · exact continues_raise _ _

theorem continues_modifyRead (r : Reg) : Continues (modifyRead r s) := continues_onRead fun _ _ => continues_next _

theorem continues_modifyWrite (r : Reg) (fs : List (Field × Word)) (k : State → State) : Continues (modifyWrite r fs s k) :=
  continues_onWrite _ _ _

theorem continues_poll (r : Reg) (mask value : Word) (k : State → State) : Continues (poll r mask value s k) :=
  continues_onRead fun v m => by split <;> exact continues_next _

theorem continues_withOperand {α : Type} {v : Except EvalError α} {k : α → Outcome}
    (hv : ∀ err, v = .error err → err = .unwritten) (hk : ∀ a, Continues (k a)) : Continues (withOperand s v k) := by
  cases v with
  | ok a => exact hk a
  | error err =>
    rw [hv err rfl]
    exact continues_raise _ _

theorem continues_withPin {w : Word} {k : Pin → Outcome} (hk : ∀ p, Continues (k p)) : Continues (withPin w s k) := by
  unfold withPin
  split
  · exact hk _
  · exact continues_raise _ _

theorem continues_withBusAddress {a : Word} {k : Outcome} (hk : Continues k) : Continues (withBusAddress a s k) := by
  unfold withBusAddress
  split
  · exact hk
  · exact continues_raise _ _

end Shared

section Operations

variable (s : State) (x : Option Var)

theorem continues_execWrite {r : Reg} {arg : WriteArg} (h : (Instr.write r arg x).wf = true) : Continues (execWrite r arg s x) := by
  cases arg with
  | value e => exact continues_withOperand (fun _ => evalTo_error h) fun v => continues_onWrite _ _ _
  | fields fs =>
    obtain ⟨hfs, hexprs⟩ := Bool.and_eq_true_iff.1 h
    simp only [execWrite, hfs, Bool.true_eq_false, if_false]
    split
    · exact continues_raise _ _
    · exact continues_withOperand (fun _ => evalFields_error hexprs) fun ws => continues_onWrite _ _ _

theorem continues_execModify {r : Reg} {fs : List (Field × Expr)} (h : (Instr.modify r fs x).wf = true) :
    Continues (execModify r fs s x) := by
  obtain ⟨hfs, hexprs⟩ := Bool.and_eq_true_iff.1 h
  simp only [execModify, hfs, Bool.true_eq_false, if_false]
  split
  · exact continues_raise _ _
  · refine continues_withOperand (fun _ => evalFields_error hexprs) fun ws => ?_
    split
    · exact continues_modifyRead _
    · exact continues_modifyWrite _ _ _

theorem continues_execWaitForCondition {r : Reg} {em ev : Expr} (h : (Instr.waitForCondition r em ev x).wf = true) :
    Continues (execWaitForCondition r em ev s x) := by
  obtain ⟨hm, hv⟩ := Bool.and_eq_true_iff.1 h
  unfold execWaitForCondition
  split
  · exact continues_raise _ _
  · exact continues_withOperand (fun _ => evalTo_error hm) fun m =>
      continues_withOperand (fun _ => evalTo_error hv) fun v => continues_poll _ _ _ _

theorem continues_digitalOutputStep (p : Pin) : Continues (digitalOutputStep x p s) := by
  unfold digitalOutputStep
  split <;> simp only [continues_modifyRead, continues_modifyWrite, continues_onWrite]

theorem continues_signalPinStep (p : Pin) (up : Bool) : Continues (signalPinStep x p up s) := by
  unfold signalPinStep
  split <;> simp only [continues_modifyRead, continues_modifyWrite, continues_onWrite]

/-- The accesses of a role configuration, whatever the fourth stores. -/
theorem continues_roleStep {u : UnitId} {fs : List (Field × Word)} {storeAddress : State → Outcome}
    (h : Continues (storeAddress s)) : Continues (roleStep u fs storeAddress x s) := by
  unfold roleStep
  split <;> simp only [continues_modifyRead, continues_modifyWrite, h]

theorem continues_execWriteByte {e : Expr} (h : e.wf = true) : Continues (execWriteByte x e s) := by
  refine continues_withOperand (fun _ => evalTo_error h) fun b => ?_
  split
  · exact continues_poll _ _ _ _
  · exact continues_onWrite _ _ _
  · exact continues_onRead fun v m => by split <;> exact continues_next _
  · exact continues_onRead fun v m => continues_next _
  · exact continues_onRead fun v m => continues_next _

theorem continues_execRequestByteFromMemory : Continues (execRequestByteFromMemory s x) := by
  unfold execRequestByteFromMemory
  split
  · exact continues_poll _ _ _ _
  · exact continues_onWrite _ _ _

theorem continues_execReceiveRequestedBytesFromMemory : Continues (execReceiveRequestedBytesFromMemory x s) := by
  unfold execReceiveRequestedBytesFromMemory
  split
  · split <;> exact continues_next _
  · exact continues_poll _ _ _ _
  · exact continues_onRead fun v m => continues_next _

theorem continues_execReceiveBytesToMemory : Continues (execReceiveBytesToMemory s x) := by
  unfold execReceiveBytesToMemory
  split
  · exact continues_poll _ _ _ _
  · exact continues_onRead fun v m => continues_next _

theorem continues_execServeBytesFromMemory : Continues (execServeBytesFromMemory s x) := by
  unfold execServeBytesFromMemory
  split
  · exact continues_poll _ _ _ _
  · exact continues_onRead fun v m => continues_next _
  · exact continues_onWrite _ _ _

end Operations

/-- Whatever the data, a well-formed instruction has a next state. -/
theorem exec_continues {i : Instr} (h : i.wf = true) (s : State) : Continues (exec i s) := by
  cases hrow : encode i with
  | some a =>
    obtain ⟨x, r, -, hi⟩ | ⟨r, v, -, hi⟩ := encode_some hrow
    · rw [exec_readInstr hi]
      exact continues_onRead fun v m => continues_next _
    · rw [(exec_of_writeInstr hi s).1]
      exact continues_onWrite _ _ _
  | none =>
    cases i with
    | read x r => exact continues_onRead fun v m => continues_next _
    | write r arg x => exact continues_execWrite s x h
    | modify r fs x => exact continues_execModify s x h
    | configureDigitalOutputPin n x =>
      exact continues_withOperand (fun _ => evalTo_error h) fun w => continues_withPin fun p => continues_digitalOutputStep s x p
    | configureSignalPin n up x =>
      obtain ⟨hn, hup⟩ := Bool.and_eq_true_iff.1 h
      exact continues_withOperand (fun _ => evalTo_error hn) fun w => continues_withOperand (fun _ => evalTo_error hup) fun b =>
        continues_withPin fun p => continues_signalPinStep s x p b
    | waitForCondition r em ev x => exact continues_execWaitForCondition s x h
    | configureAsController a x =>
      exact continues_withOperand (fun _ => evalTo_error h) fun w => continues_withBusAddress (by
        rw [controllerConfigStep_eq]
        exact continues_roleStep s x (continues_onWrite _ _ _))
    | writeByte x e => exact continues_execWriteByte s x h
    | requestByteFromMemory x => exact continues_execRequestByteFromMemory s x
    | receiveRequestedBytesFromMemory x => exact continues_execReceiveRequestedBytesFromMemory s x
    | configureAsTarget a x =>
      exact continues_withOperand (fun _ => evalTo_error h) fun w => continues_withBusAddress (by
        rw [targetConfigStep_eq]
        exact continues_roleStep s x (continues_onWrite _ _ _))
    | receiveBytesToMemory x => exact continues_execReceiveBytesToMemory s x
    | serveBytesFromMemory x => exact continues_execServeBytesFromMemory s x
    | _ => cases hrow

/-- A label of the program has an index. -/
theorem jumpTo_continues {l : Label} {s : State} (h : (programLabels s.program).contains l = true) : Continues (jumpTo l s) := by
  have hsome : (labelIndex l s.program).isSome = true := by
    obtain ⟨ln, hln, hlabel⟩ := List.mem_filterMap.1 (List.contains_iff_mem.1 h)
    rw [labelIndex, List.findIdx?_isSome, List.any_eq_true]
    exact ⟨ln, hln, beq_iff_eq.2 hlabel⟩
  obtain ⟨k, hk⟩ := Option.isSome_iff_exists.1 hsome
  rw [jumpTo, hk]
  exact continues_next _

/-- The current statement of a well-formed program is well formed. -/
theorem currentStmt_wf {s : State} (h : programWf s.program = true) {st : Stmt} (hst : s.currentStmt = some st) :
    st.wf (programLabels s.program) = true := by
  obtain ⟨ln, hln, rfl⟩ := Option.map_eq_some_iff.1 hst
  exact List.all_eq_true.1 (Bool.and_eq_true_iff.1 h).2 ln (List.mem_of_getElem? hln)

section Statement

variable {s : State} {x : Var} {e : Expr} {l : Label}

theorem cpuStep_of_assign (h : s.currentStmt = some (.assign x e)) : cpuStep s = runAssign x e s := by
  simp [cpuStep, fetchInstr, runOther, h]

theorem cpuStep_of_ifGoto (h : s.currentStmt = some (.ifGoto e l)) :
    cpuStep s = withOperand s (evalBool s.vars e) fun b => if b = true then jumpTo l s else .next s.finish := by
  simp [cpuStep, fetchInstr, runOther, h, runIfGoto]

theorem cpuStep_of_goto (h : s.currentStmt = some (.goto l)) : cpuStep s = jumpTo l s := by
  simp [cpuStep, fetchInstr, runOther, h]

theorem halted_iff : s.halted = true ↔ s.currentStmt = some .halt ∨ s.currentStmt = none := by
  unfold State.halted
  split <;> simp_all

/-- An assignment is an operand and a return. -/
theorem runAssign_eq : runAssign x e s = withOperand s (evalExpr s.vars e) fun v => .next (s.ret (some x) v) := by
  rw [runAssign]
  cases evalExpr s.vars e <;> rfl

theorem jumpTo_of_labelIndex {k : Nat} (h : labelIndex l s.program = some k) : jumpTo l s = .next { s with pc := ⟨k, 0⟩ } := by
  rw [jumpTo, h]
  rfl

end Statement

theorem cpuStep_continues {s : State} (h : programWf s.program = true) : Continues (cpuStep s) := by
  cases hst : s.currentStmt with
  | none => exact ⟨s, cpuStep_of_halted (halted_iff.2 (.inr hst))⟩
  | some st =>
    have hwf := currentStmt_wf h hst
    cases st with
    | instr i =>
      rw [cpuStep_of_fetch (fetchInstr_of_stmt (.inl hst))]
      exact exec_continues hwf s
    | access a =>
      cases hdec : decode a with
      | ok i =>
        rw [cpuStep_of_fetch (fetchInstr_of_stmt (.inr ⟨a, hst, hdec⟩))]
        exact exec_continues (encodeOfDecodeIsTheAccess a i hdec).1 s
      | error e =>
        rw [cpuStep_of_decode_error hst hdec]
        cases e with
        | access _ | unadmitted _ => exact continues_raise _ _
        | noForm u v => exact continues_onWrite _ _ _
    | assign x e =>
      rw [cpuStep_of_assign hst, runAssign_eq]
      exact continues_withOperand (fun _ => evalExpr_error hwf) fun v => continues_next _
    | ifGoto e l =>
      obtain ⟨he, hl⟩ := Bool.and_eq_true_iff.1 hwf
      rw [cpuStep_of_ifGoto hst]
      refine continues_withOperand (fun _ => evalTo_error he) fun b => ?_
      split
      · exact jumpTo_continues hl
      · exact continues_next _
    | goto l =>
      rw [cpuStep_of_goto hst]
      exact jumpTo_continues hwf
    | halt => exact ⟨s, cpuStep_of_halted (halted_iff.2 (.inl hst))⟩

/-! ## Unassigned variables (10_state.md R31) -/

section Unwritten

variable {s : State} (hs : s.fault = .none)
include hs

theorem withOperand_unwritten {α : Type} (k : α → Outcome) :
    withOperand s (.error .unwritten) k = .next (s.setFault .unwrittenVar) := raise_of_none hs _

/-- The first operand of an instruction that has one. -/
theorem exec_of_unwritten_operand {e e' : Expr} {x : Option Var} {r : Reg} (he : evalWord s.vars e = .error .unwritten) {i : Instr}
    (hi : i ∈ [Instr.write r (.value e) x, .configureDigitalOutputPin e x, .configureSignalPin e e' x,
      .configureAsController e x, .writeByte x e, .configureAsTarget e x] ++
        (if Reg.pollable r then [.waitForCondition r e e' x] else [])) :
    exec i s = .next (s.setFault .unwrittenVar) := by
  rw [List.mem_append] at hi
  obtain hi | hi := hi
  · simp only [List.mem_cons, List.not_mem_nil, or_false] at hi
    obtain rfl | rfl | rfl | rfl | rfl | rfl := hi
    · simp only [exec, execWrite, he, withOperand_unwritten hs]
    · simp only [exec, execConfigureDigitalOutputPin, he, withOperand_unwritten hs]
    · simp only [exec, execConfigureSignalPin, he, withOperand_unwritten hs]
    · simp only [exec, execConfigureAsController, he, withOperand_unwritten hs]
    · simp only [exec, execWriteByte, he, withOperand_unwritten hs]
    · simp only [exec, execConfigureAsTarget, he, withOperand_unwritten hs]
  · split at hi
    · next hr =>
      rw [List.mem_singleton.1 hi]
      simp only [exec, execWaitForCondition, hr, he, withOperand_unwritten hs, Bool.true_eq_false, if_false]
    · exact absurd hi List.not_mem_nil

/-- The second operand, which is evaluated after the first. -/
theorem exec_of_unwritten_second {e e' : Expr} {w : Word} (he : evalWord s.vars e = .ok w) (x : Option Var) (r : Reg) :
    (evalBool s.vars e' = .error .unwritten → exec (.configureSignalPin e e' x) s = .next (s.setFault .unwrittenVar)) ∧
      (evalWord s.vars e' = .error .unwritten → Reg.pollable r = true →
        exec (.waitForCondition r e e' x) s = .next (s.setFault .unwrittenVar)) := by
  refine ⟨fun he' => ?_, fun he' hr => ?_⟩
  · simp only [exec, execConfigureSignalPin, he, he', withOperand_ok, withOperand_unwritten hs]
  · simp only [exec, execWaitForCondition, hr, he, he', withOperand_ok, withOperand_unwritten hs, Bool.true_eq_false, if_false]

theorem exec_of_unwritten_fields {r : Reg} {fs : List (Field × Expr)} (hfs : fieldsWf r fs = true)
    (h : evalFields s.vars fs = .error .unwritten) (x : Option Var) :
    (r.writable = true → exec (.write r (.fields fs) x) s = .next (s.setFault .unwrittenVar)) ∧
      (Reg.modifiable r = true → exec (.modify r fs x) s = .next (s.setFault .unwrittenVar)) := by
  refine ⟨fun hw => ?_, fun hm => ?_⟩
  · simp only [exec, execWrite, hw, hfs, h, withOperand_unwritten hs, Bool.true_eq_false, if_false]
  · simp only [exec, execModify, hm, hfs, h, withOperand_unwritten hs, Bool.true_eq_false, if_false]

/-- An assignment and a condition. -/
theorem cpuStep_of_unwritten {e : Expr} (he : evalExpr s.vars e = .error .unwritten)
    (h : (∃ x, s.currentStmt = some (.assign x e)) ∨ ∃ l, s.currentStmt = some (.ifGoto e l)) :
    cpuStep s = .next (s.setFault .unwrittenVar) := by
  obtain ⟨x, h⟩ | ⟨l, h⟩ := h
  · rw [cpuStep_of_assign h, runAssign_eq, he, withOperand_unwritten hs]
  · rw [cpuStep_of_ifGoto h, evalBool, evalTo, he, withOperand_unwritten hs]

end Unwritten

/-! ## Expressions (30_encoding.md R141, R142) -/

/-- The operators of two operands. -/
def binaryOps : List (Expr → Expr → Expr) := [Expr.eq, .ne, .and, .or, .addMod256, .bitAnd, .bitOr]

/-- Such an operator applies a function to both values. -/
theorem evalExpr_binary {op : Expr → Expr → Expr} (h : op ∈ binaryOps) :
    ∃ f, ∀ vs a b, evalExpr vs (op a b) = onVals f (evalExpr vs a) (evalExpr vs b) := by
  simp only [binaryOps, List.mem_cons, List.not_mem_nil, or_false] at h
  obtain rfl | rfl | rfl | rfl | rfl | rfl | rfl := h <;> exact ⟨_, fun _ _ _ => rfl⟩

theorem evalExpr_var (vs : List (Var × Val)) (x : Var) :
    (∀ v, lookupVar x vs = some v → evalExpr vs (.var x) = .ok v) ∧
      (lookupVar x vs = none → evalExpr vs (.var x) = .error .unwritten) := by
  refine ⟨fun v h => ?_, fun h => ?_⟩ <;> simp only [evalExpr, h]

theorem toNat_lowMask {n : Nat} (hn : n ≤ 32) : (lowMask n).toNat = 2 ^ n - 1 := by
  have hpow : 2 ^ n ≤ 2 ^ 32 := Nat.pow_le_pow_right (by decide) hn
  have hpos : 0 < 2 ^ n := Nat.two_pow_pos n
  rw [lowMask, BitVec.toNat_ofNat, Nat.mod_eq_of_lt (by omega)]

/-- The bits `hi` to `lo` of a word. -/
theorem toNat_slice (w : Word) {hi lo : Nat} (hle : lo ≤ hi) (hhi : hi < 32) :
    ((w >>> lo) &&& lowMask (hi - lo + 1)).toNat = w.toNat / 2 ^ lo % 2 ^ (hi - lo + 1) := by
  rw [BitVec.toNat_and, toNat_lowMask (by omega), Nat.and_two_pow_sub_one_eq_mod, BitVec.toNat_ushiftRight,
    Nat.shiftRight_eq_div_pow]

theorem toNat_addMod256 (p q : Word) : ((p + q) &&& 0xFF).toNat = (p.toNat + q.toNat) % 256 := by
  have hmask : (0xFF : Word).toNat = 2 ^ 8 - 1 := by decide
  rw [BitVec.toNat_and, hmask, Nat.and_two_pow_sub_one_eq_mod, BitVec.toNat_add]
  exact Nat.mod_mod_of_dvd _ (by decide)

section Values

variable {vs : List (Var × Val)} {a b : Expr}

theorem evalExpr_compare {p q : Val} (ha : evalExpr vs a = .ok p) (hb : evalExpr vs b = .ok q) (h : p.sameKind q = true) :
    evalExpr vs (.eq a b) = .ok (.bool (decide (p = q))) ∧ evalExpr vs (.ne a b) = .ok (.bool (decide (p ≠ q))) := by
  have hbeq : (p == q) = decide (p = q) := beq_eq_decide p q
  simp only [evalExpr, ha, hb, onVals_ok, applyCompare, if_pos h, hbeq, decide_not, and_self]

theorem evalExpr_bools {p q : Bool} (ha : evalExpr vs a = .ok (.bool p)) (hb : evalExpr vs b = .ok (.bool q)) :
    evalExpr vs (.not a) = .ok (.bool (!p)) ∧ evalExpr vs (.and a b) = .ok (.bool (p && q)) ∧
      evalExpr vs (.or a b) = .ok (.bool (p || q)) ∧ ∀ f, evalFields vs [(f, a)] = .ok [(f, if p then 1 else 0)] := by
  simp only [evalExpr, evalFields, evalTo, ha, hb, onVal_ok, onVals_ok, applyBool_bool, applyBools_bools]
  exact ⟨trivial, trivial, trivial, fun f => rfl⟩

theorem evalExpr_words {p q : Word} (ha : evalExpr vs a = .ok (.word p)) (hb : evalExpr vs b = .ok (.word q)) :
    evalExpr vs (.some a) = .ok (.opt (some p)) ∧ evalExpr vs (.bitAnd a b) = .ok (.word (p &&& q)) ∧
      evalExpr vs (.bitOr a b) = .ok (.word (p ||| q)) ∧
      (∃ w : Word, evalExpr vs (.addMod256 a b) = .ok (.word w) ∧ w.toNat = (p.toNat + q.toNat) % 256) ∧
      (∀ hi lo, lo ≤ hi → hi < 32 → ∃ w : Word, evalExpr vs (.slice a hi lo) = .ok (.word w) ∧
        w.toNat = p.toNat / 2 ^ lo % 2 ^ (hi - lo + 1)) := by
  simp only [evalExpr, ha, hb, onVal_ok, onVals_ok, applyWord_word, applyWords_words]
  exact ⟨trivial, trivial, trivial, ⟨_, rfl, toNat_addMod256 p q⟩,
    fun hi lo hle hhi => ⟨_, by rw [if_pos ⟨hle, hhi⟩], toNat_slice p hle hhi⟩⟩

/-- Every operator has a value on values, of whatever kind. -/
theorem evalExpr_total {p : Val} (ha : evalExpr vs a = .ok p) :
    (∃ w, evalWord vs a = .ok w) ∧ (∃ t, evalBool vs a = .ok t) ∧ (∀ f, ∃ w, evalFields vs [(f, a)] = .ok [(f, w)]) ∧
      (∃ v, evalExpr vs (.not a) = .ok v) ∧ (∃ v, evalExpr vs (.some a) = .ok v) ∧
      (∀ hi lo, lo ≤ hi → hi < 32 → ∃ v, evalExpr vs (.slice a hi lo) = .ok v) ∧
      ∀ op ∈ binaryOps, ∀ b q, evalExpr vs b = .ok q → ∃ v, evalExpr vs (op a b) = .ok v := by
  simp only [evalExpr, evalFields, evalWord, evalBool, evalTo, ha, onVal_ok]
  refine ⟨⟨_, rfl⟩, ⟨_, rfl⟩, fun f => ⟨_, rfl⟩, ⟨_, rfl⟩, ⟨_, rfl⟩, fun hi lo hle hhi => ⟨_, if_pos ⟨hle, hhi⟩⟩,
    fun op hop b q hb => ?_⟩
  obtain ⟨f, hf⟩ := evalExpr_binary hop
  exact ⟨f p q, by rw [hf, ha, hb, onVals_ok]⟩

/-- An unassigned variable in either operand. -/
theorem evalExpr_binary_unwritten {op : Expr → Expr → Expr} (hop : op ∈ binaryOps) :
    (evalExpr vs a = .error .unwritten → evalExpr vs (op a b) = .error .unwritten) ∧
      (∀ p, evalExpr vs a = .ok p → evalExpr vs b = .error .unwritten → evalExpr vs (op a b) = .error .unwritten) := by
  obtain ⟨f, hf⟩ := evalExpr_binary hop
  refine ⟨fun ha => ?_, fun p ha hb => ?_⟩
  · rw [hf, ha, onVals_raise_left]
  · rw [hf, ha, hb, onVals_raise_right]

theorem evalExpr_unary_unwritten (ha : evalExpr vs a = .error .unwritten) (hi lo : Nat) :
    evalExpr vs (.not a) = .error .unwritten ∧ evalExpr vs (.some a) = .error .unwritten ∧
      evalExpr vs (.slice a hi lo) = .error .unwritten := by
  simp only [evalExpr, ha, onVal_raise, and_self]

end Values

/-- The return of an operation without a result. -/
theorem retNone_frame (s : State) (x : Option Var) :
    ∃ (vars : List (Var × Val)) (k : Nat),
      s.retNone x = { s with vars := vars, drawCount := s.drawCount + k, pc := ⟨s.pc.stmt + 1, 0⟩ } ∧
      (∀ y, x ≠ some y → lookupVar y vars = lookupVar y s.vars) ∧ (x = none → vars = s.vars ∧ k = 0) := by
  refine ⟨(s.noResult x).vars, (s.noResult x).drawCount - s.drawCount, ?_, fun y hy => State.lookupVar_noResult hy, ?_⟩
  · cases x with
    | none => simp [State.finish]
    | some y => simp [State.retNone, State.noResult, State.finish]
  · rintro rfl
    simp

/-- Settles O56: the statements by their equations, `cpuStep_continues`, and the value of each form of expression. -/
theorem callerStatementsRun : Obligations.CallerStatementsRun := by
  refine ⟨fun s => ⟨fun x e v hst he => ?_, fun e l k hst hl => ⟨fun he => ?_, fun he => ?_⟩, fun l k hst hl => ?_,
      fun h => cpuStep_of_halted (halted_iff.2 h), retNone_frame s⟩,
    fun s e hs => ⟨cpuStep_of_unwritten hs, fun he x r e' i hi => exec_of_unwritten_operand hs he hi,
      fun x r e' w he => exec_of_unwritten_second hs he x r, fun x r fs hfs h => exec_of_unwritten_fields hs hfs h x⟩,
    fun s h => cpuStep_continues h,
    fun vs => ⟨fun w => rfl, fun b => rfl, rfl, evalExpr_var vs, fun a b p q => evalExpr_compare, fun a b p q => evalExpr_bools,
      fun a b p q => evalExpr_words, fun a p => evalExpr_total, fun op hop a b => evalExpr_binary_unwritten hop,
      fun a hi lo ha => evalExpr_unary_unwritten ha hi lo⟩⟩
  · rw [cpuStep_of_assign hst, runAssign_eq, he]
    rfl
  · rw [cpuStep_of_ifGoto hst, he, withOperand_ok, if_pos rfl, jumpTo_of_labelIndex hl]
  · rw [cpuStep_of_ifGoto hst, he]
    rfl
  · rw [cpuStep_of_goto hst, jumpTo_of_labelIndex hl]

end Machine
end Sys2Proof
end
